-- ==== Sys2Proof/Word.lean ====
section
/-! DEFINITION. The word of a command frame and the wide operand (30_encoding.md R70, R73). -/

namespace Sys2Proof

/-- A frame word: 64 bits, bit 0 the least significant (00_scope.md R10, 30_encoding.md R70). -/
abbrev Word := BitVec 64

/-- A key, mask, data, selector or stash operand: 128 bits, the largest width (00_scope.md R6). -/
abbrev Wide := BitVec 128

/-- A version tag, held zero-extended to 8 bits: `VW` is at most 8 (00_scope.md R5, 10_state.md R27). -/
abbrev Version := BitVec 8

/-- One byte of a frame that a harness stores as bytes (20_memory.md R58). -/
abbrev Byte := BitVec 8

end Sys2Proof
end

