-- ==== Sys2Proof/Config.lean ====
section
/-! DEFINITION. The instance parameters and the fixed constants of the engine (00_scope.md R5 to R7). -/

namespace Sys2Proof

/-- The parameters of an instance of the engine (00_scope.md R5): "The source fixes no array
dimension as a number. The model takes the following parameters as arguments". -/
structure Params where
  /-- `NW`, the number of ways. -/
  nw : Nat
  /-- `NR`, the rows of every way's array and of the stash. -/
  nr : Nat
  /-- `NB`, the banks per row of every way's array. -/
  nb : Nat
  /-- `NS`, the stash slots per row. -/
  ns : Nat
  /-- `NPG`, the parity groups. -/
  npg : Nat
  /-- `VW`, the width of a version tag in bits. -/
  vw : Nat
deriving DecidableEq, Repr

/-- The ranges of 00_scope.md R5. -/
abbrev Params.wf (p : Params) : Prop :=
  (1 ≤ p.nw ∧ p.nw ≤ 255) ∧ (1 ≤ p.nr ∧ p.nr ≤ 256) ∧ (1 ≤ p.nb ∧ p.nb ≤ 256) ∧
    (1 ≤ p.ns ∧ p.ns ≤ 256) ∧ p.npg ≤ 64 ∧ (1 ≤ p.vw ∧ p.vw ≤ 8)

/-- The reference configuration `REF` (00_scope.md R7). -/
def Params.ref : Params := ⟨4, 8, 4, 4, 8, 1⟩

namespace Config

/-- `KW_MAX`, the largest key, mask and data width of a way (00_scope.md R6). -/
def kwMax : Nat := 128

/-- `HW_MAX`, the largest hash width of a way and the number of matrix rows held (R6, 10_state.md R23). -/
def hwMax : Nat := 64

/-- `ROW_W_MAX`, the widest row slice (R6). -/
def rowWMax : Nat := 8

/-- `BANK_W_MAX`, the widest bank slice (R6). -/
def bankWMax : Nat := 8

/-- `VPN_W`, the widest VPN slice (R6). -/
def vpnWMax : Nat := 16

/-- The number of address kinds of the miss defaults (10_state.md R30). -/
def missKinds : Nat := 5

/-- The number of image words of a slot (10_state.md R35, R36). -/
def imageWords : Nat := 10

end Config

end Sys2Proof
end

