-- ==== Sys2Proof/Syntax.lean ====
section
/-! DEFINITION. The fifteen commands, the frame that carries one, and the reasons a frame is illegal
(30_encoding.md R70 to R90). -/

namespace Sys2Proof

/-- The hash-layout variant of a way, the bit `hlv` (10_state.md R40): 0 is `V1`, 1 is `V2`. -/
inductive HashLayout where
  | v1
  | v2
deriving DecidableEq, Repr

/-- What a parity group covers, the bit `kind` (10_state.md R28): 0 a way RAM slot, 1 a stash slot. -/
inductive SlotKind where
  | ram
  | stash
deriving DecidableEq, Repr

/-- A command with its operands. Indices and widths are natural numbers ("the value used is the
field's bits read as a natural number", 30_encoding.md R72); keys, masks, data, selectors, hashes and
stored fields are bit vectors. -/
inductive Instr where
  /-- `CFG_WAY` (30_encoding.md R75, 40_hash.md R101). -/
  | cfgWay (way kw hw rowLo rowW bankLo bankW vpnLo vpnW : Nat) (layout : HashLayout)
  /-- `SET_HASH_ROW` (R76, 40_hash.md R103). -/
  | setHashRow (way row kw : Nat) (sel : Wide)
  /-- `INSERT` (R77, 42_way.md R131). -/
  | insert (way row bank : Nat) (ver : Version) (mw : Nat) (mask : Wide) (dw : Nat) (data : Wide)
      (vpn : BitVec 16) (ne : BitVec 32) (ctl : BitVec 8)
  /-- `EVICT` (R78, 42_way.md R133). -/
  | evict (way row bank : Nat)
  /-- `STASH_WRITE` (R79, 43_stash.md R151). -/
  | stashWrite (row slot : Nat) (ver : Version) (mm md : Wide) (idc : BitVec 16) (rbs : BitVec 8)
      (ben : Bool)
  /-- `SWAP_VERSION` (R80, 46_version.md R200). -/
  | swapVersion (ver : Version)
  /-- `SET_PARITY_GROUP` (R81, 44_parity.md R167). -/
  | setParityGroup (group : Nat) (valid : Bool) (kind : SlotKind) (way row col wsel : Nat)
      (maskLo maskHi : BitVec 16) (expected : Bool)
  /-- `SET_MISS_DEFAULT` (R82, 45_resolver.md R186). -/
  | setMissDefault (kind : Nat) (missValue mask dflt : BitVec 32)
  /-- `SET_SHIFTCOUNT` (R83, 45_resolver.md R187). -/
  | setShiftcount (index : Nat) (count : BitVec 8)
  /-- `LOOKUP` (R84, 47_lookup.md R206). -/
  | lookup (kw : Nat) (key : Wide)
  /-- `HASH` (R85, 40_hash.md R105). -/
  | hash (way kw : Nat) (key : Wide)
  /-- `MAP` (R86, 41_bank_map.md R121). -/
  | map (way : Nat) (hash : Word)
  /-- `WAY_LOOKUP` (R87, 42_way.md R135). -/
  | wayLookup (way row bank : Nat) (ver : Version) (kw : Nat) (key : Wide)
  /-- `PROBE` (R88, 43_stash.md R153). -/
  | probe (row kw : Nat) (key : Wide)
  /-- `PCHECK` (R89, 44_parity.md R169). -/
  | pcheck (group : Nat) (bits : BitVec 32)
deriving DecidableEq, Repr

/-- One command as the harness presents it, whole and with its word count known (30_encoding.md R70):
the header word `W0` and the words after it. -/
structure Frame where
  header : Word
  payload : List Word
deriving DecidableEq, Repr

/-- The fields of a header word (30_encoding.md R72). -/
structure Header where
  op : BitVec 8
  a : BitVec 8
  r : BitVec 8
  c : BitVec 8
  v : BitVec 8
  kw : BitVec 8
  imm : BitVec 16
deriving DecidableEq, Repr

/-- Why a frame is illegal, the three cases of 30_encoding.md R90. -/
inductive IllegalFrame where
  /-- (a) its `op` is not in rule R74. -/
  | unknownOpcode
  /-- (b) its word count differs from the count rule R74 gives its `op`. -/
  | wrongWordCount
  /-- (c) a bit or field that rules R75 to R89 reserve as zero is not zero. -/
  | reservedNotZero
deriving DecidableEq, Repr

/-- The opcode of a command (30_encoding.md R74). -/
def Instr.opcode : Instr → BitVec 8
  | .cfgWay .. => 0x01
  | .setHashRow .. => 0x02
  | .insert .. => 0x03
  | .evict .. => 0x04
  | .stashWrite .. => 0x05
  | .swapVersion .. => 0x06
  | .setParityGroup .. => 0x07
  | .setMissDefault .. => 0x08
  | .setShiftcount .. => 0x09
  | .lookup .. => 0x10
  | .hash .. => 0x11
  | .map .. => 0x12
  | .wayLookup .. => 0x13
  | .probe .. => 0x14
  | .pcheck .. => 0x15

/-- The configuration class of 30_encoding.md R71: opcodes `0x01` to `0x09`, the commands that may
write state. The others are the lookup class. -/
def Instr.isConfiguration (i : Instr) : Bool := i.opcode.toNat < 0x10

end Sys2Proof
end

