-- ==== Sys2Proof/Machine/State.lean ====
section
/-! DEFINITION. The state of the engine (10_state.md), the records it is made of, the steps its
environment may take (00_scope.md R8), and the state after reset (10_state.md R37). -/

namespace Sys2Proof.Machine

/-! ## Storage -/

/-- An array of the engine by the key of a coordinate (20_memory.md R50): the listed elements, keys
strictly rising, none equal to what an unlisted element reads as. -/
abbrev Memory (α : Type) := List (Nat × α)

/-- The canonical form of an array whose unlisted elements read as `d`: equal arrays are equal lists. -/
abbrev Memory.wf {α : Type} (d : α) (m : Memory α) : Prop :=
  m.Pairwise (fun x y => x.1 < y.1) ∧ ∀ c ∈ m, c.2 ≠ d

/-- The configuration record of a way (10_state.md R22). Widths and positions are natural numbers; the
field widths of R22 bound them in every legal record (`WayCfg.Legal` in Safety.lean). -/
structure WayCfg where
  valid : Bool
  kw : Nat
  hw : Nat
  rowLo : Nat
  rowW : Nat
  bankLo : Nat
  bankW : Nat
  vpnLo : Nat
  vpnW : Nat
  hlv : HashLayout
deriving DecidableEq, Repr

/-- `WAYCFG[w]` after reset: "all fields 0" (10_state.md R37). -/
def WayCfg.zero : WayCfg := ⟨false, 0, 0, 0, 0, 0, 0, 0, 0, .v1⟩

/-- The entry of one way slot (10_state.md R24). -/
structure RamEntry where
  mask : Wide
  data : Wide
  vpn : BitVec 16
  ne : BitVec 32
  ctl : BitVec 8
  ver : Version
deriving DecidableEq, Repr

/-- A way slot after reset: "no entry is enabled" (10_state.md R37). -/
def RamEntry.zero : RamEntry := ⟨0, 0, 0, 0, 0, 0⟩

/-- The entry of one stash slot (10_state.md R26). -/
structure StashEntry where
  mm : Wide
  md : Wide
  idc : BitVec 16
  rbs : BitVec 8
  ben : Bool
  ver : Version
deriving DecidableEq, Repr

/-- A stash slot after reset: "no stash entry exists" (10_state.md R37). -/
def StashEntry.zero : StashEntry := ⟨0, 0, 0, 0, false, 0⟩

/-- A parity group record (10_state.md R28). -/
structure ParityGroup where
  valid : Bool
  kind : SlotKind
  way : Nat
  row : Nat
  col : Nat
  wsel : Nat
  mask : BitVec 32
  expected : Bool
deriving DecidableEq, Repr

/-- `PG[g]` after reset: "all fields 0" (10_state.md R37). -/
def ParityGroup.zero : ParityGroup := ⟨false, .ram, 0, 0, 0, 0, 0, false⟩

/-- A miss-default triple (10_state.md R30). -/
structure MissDefault where
  missValue : BitVec 32
  mask : BitVec 32
  dflt : BitVec 32
deriving DecidableEq, Repr

/-- `MISSDEF[k]` after reset (10_state.md R37). -/
def MissDefault.zero : MissDefault := ⟨0, 0, 0⟩

/-- The name of one slot: a `(way, row, bank)` triple or a `(row, slot)` pair (00_scope.md glossary). -/
inductive SlotRef where
  | ram (way row bank : Nat)
  | stash (row slot : Nat)
deriving DecidableEq, Repr

/-! ## Outputs -/

/-- The status of a response (00_scope.md R14, 60_exceptions.md R220). -/
inductive Status where
  | ok
  | configError
  | rangeError
  | parityError
deriving DecidableEq, Repr

/-- A BankCoordinate (41_bank_map.md R120), a value in flight and no state. -/
structure BankCoord where
  row : Nat
  bank : Nat
  vpn : BitVec 16
deriving DecidableEq, Repr

/-- A way hit (45_resolver.md R185). -/
structure WayHit where
  way : Nat
  row : Nat
  bank : Nat
  vpn : BitVec 16
deriving DecidableEq, Repr

/-- A stash hit (45_resolver.md R185, 43_stash.md R150). -/
structure StashHit where
  row : Nat
  slot : Nat
  rbs : BitVec 8
  idc : BitVec 16
deriving DecidableEq, Repr

/-- The Resolution, the fields present under each `outcome` (45_resolver.md R189). -/
inductive Resolution where
  /-- `MISS`, with `MISSDEF[0]` to `MISSDEF[4]` as stored. -/
  | miss (defaults : Vector MissDefault 5)
  /-- `HIT_WAY`. -/
  | hitWay (hit : WayHit) (shiftcount : BitVec 8)
  /-- `HIT_STASH`. -/
  | hitStash (hit : StashHit) (shiftcount : BitVec 8)
deriving DecidableEq, Repr

/-- The payload of a response (30_encoding.md R94). -/
inductive Payload where
  /-- No payload. -/
  | empty
  /-- `HASH`: the hash, the bits at and above `HW[w]` zero. -/
  | hash (value : Word)
  /-- `MAP`: the coordinate. -/
  | coord (c : BankCoord)
  /-- `WAY_LOOKUP`: the stored VPN on a hit, none on a miss. -/
  | wayHit (vpn : Option (BitVec 16))
  /-- `PROBE`: the stash hit, none on a miss. -/
  | stashHit (hit : Option StashHit)
  /-- `PCHECK` with status `PARITY_ERROR`: the group. -/
  | group (g : Nat)
  /-- `LOOKUP`: the Resolution and the parity failure list. -/
  | lookup (res : Resolution) (perr : List Nat)
deriving DecidableEq, Repr

/-- A response record (00_scope.md R14). -/
structure Response where
  status : Status
  payload : Payload
deriving DecidableEq, Repr

/-- A record of the event stream (10_state.md R34). -/
inductive Event where
  | parityError (group : Nat)
deriving DecidableEq, Repr

/-! ## What the environment does -/

/-- One step of one agent (00_scope.md R8). -/
inductive Input where
  /-- The harness issues a command frame (R8 (a)). -/
  | command (f : Frame)
  /-- The scrubber visits group `g` (44_parity.md R176). -/
  | scrub (g : Nat)
  /-- `CORRUPT`: bit `bit` of image word `wsel` of a slot flips (44_parity.md R178). -/
  | corrupt (slot : SlotRef) (wsel bit : Nat)
  /-- The harness applies reset (70_reset_and_hazards.md R250). -/
  | reset
deriving DecidableEq, Repr

/-! ## The state -/

/-- The machine: the instance parameters, the engine's state (10_state.md), its two output streams,
and the harness's schedule and position. -/
structure State where
  /-- The instance parameters (00_scope.md R5), which no step changes. -/
  params : Params
  /-- `WAYCFG[w]`, key `w` (R22). -/
  wayCfg : Memory WayCfg
  /-- `M[w][i]`, key `matrixKey w i` (R23). -/
  matrix : Memory Wide
  /-- `RAM[w][r][b]`, key `ramKey w r b` (R24). -/
  ram : Memory RamEntry
  /-- `STASH[r][s]`, key `stashKey r s` (R26). -/
  stash : Memory StashEntry
  /-- `ACTIVE_VERSION` (R27). -/
  activeVersion : Version
  /-- `PG[g]`, key `g` (R28). -/
  parityGroups : Memory ParityGroup
  /-- `MISSDEF[k]` (R30). -/
  missDef : Vector MissDefault 5
  /-- `SHIFTCOUNT[i]`, key `i` (R31). -/
  shiftCount : Memory (BitVec 8)
  /-- The response stream, oldest first (R34). -/
  responses : List Response
  /-- The event stream, oldest first (R34). -/
  events : List Event
  /-- What the agents do next, in order (00_scope.md R8, R9). -/
  pending : List Input
  /-- The harness's index into its frames (R21): the commands taken so far. -/
  position : Nat
deriving DecidableEq, Repr

/-- The engine of the given parameters after reset, with nothing scheduled (10_state.md R37). -/
def State.resetFor (p : Params) : State where
  params := p
  wayCfg := []
  matrix := []
  ram := []
  stash := []
  activeVersion := 0
  parityGroups := []
  missDef := Vector.replicate 5 MissDefault.zero
  shiftCount := []
  responses := []
  events := []
  pending := []
  position := 0

/-- The machine right after reset, in the reference configuration (10_state.md R37, 00_scope.md R7).
DESIGN CHOICE (log 1): the parameters are those of `REF`. -/
def State.reset : State := State.resetFor Params.ref

/-- Where the machine has no step. No command stops it (60_exceptions.md R225). -/
inductive Fault where
  /-- Raised by the scheduled scrubber step on a group that is not valid, which 44_parity.md R176 does
  not enable. Safe: the model stops where the spec has no step. -/
  | scrubNotEnabled
  /-- Raised by the scheduled corruption step on a slot outside the arrays or on a bit that is not backed
  by storage, which 44_parity.md R178 does not enable. Safe: the model stops where the spec has no step. -/
  | corruptNotEnabled
deriving DecidableEq, Repr

/-- Why the model gives an instruction no meaning. -/
inductive Refusal where
  /-- Raised by an arm of `exec` that has no meaning yet; no arm has it. Safe: nothing is claimed of it. -/
  | notModelled (mnemonic : String)
deriving DecidableEq, Repr

/-- The outcome of a step of this machine. -/
abbrev Result := Host.Outcome State Fault Refusal

end Sys2Proof.Machine
end

