-- ==== Sys2Proof/Machine/Operands.lean ====
section
/-! DEFINITION. The operators on operands of 00_scope.md R10 to R15: widths, slices, nibble expansion,
parity, and numbers built bit by bit. -/

namespace Sys2Proof.Machine

/-- The number whose bits 0 to `n - 1` are `f 0` to `f (n - 1)`. -/
def ofBits (f : Nat → Bool) : Nat → Nat
  | 0 => 0
  | n + 1 => ofBits f n + (f n).toNat * 2 ^ n

/-- The XOR of `f 0` to `f (n - 1)`. -/
def xorUpTo (f : Nat → Bool) : Nat → Bool
  | 0 => false
  | n + 1 => xorUpTo f n ^^ f n

/-- `parity(v)`, the XOR of all bits of `v` (00_scope.md R11). -/
def parity {n : Nat} (v : BitVec n) : Bool := xorUpTo v.getLsbD n

/-- `v` has no 1 bit at or above bit `w`: the check of 00_scope.md R15 on a declared width. -/
def fitsWidth {n : Nat} (v : BitVec n) (w : Nat) : Bool := v.toNat < 2 ^ w

/-- `slice(v, lo, w)`: the number `v[lo+w-1 : lo]`, and 0 when `w = 0` (00_scope.md R11). -/
def slice (v : Word) (lo w : Nat) : Nat := v.toNat / 2 ^ lo % 2 ^ w

/-- `nexp(ne)`: bit `j` is `ne[j div 4]` (00_scope.md R11). -/
def nexp (ne : BitVec 32) : Wide := BitVec.ofNat 128 (ofBits (fun j => ne.getLsbD (j / 4)) 128)

/-- `ceil(KW/4)`, the nibbles of a key of `kw` bits (10_state.md R24). -/
def nibbles (kw : Nat) : Nat := (kw + 3) / 4

/-- The declared width of a key that no way fixes: outside 1 .. 128 is a `ConfigError`
(43_stash.md R153, 47_lookup.md R206). -/
def keyWidthLegal (kw : Nat) : Bool := decide (1 ≤ kw) && decide (kw ≤ Config.kwMax)

/-- A version operand fits in `VW` bits (46_version.md R200). -/
def versionFits (p : Params) (v : Version) : Bool := fitsWidth v p.vw

/-- The 32-bit word `k` of a 128-bit value, low word first (20_memory.md R57). -/
def wordOfWide (x : Wide) (k : Nat) : BitVec 32 := x.extractLsb' (32 * k) 32

end Sys2Proof.Machine
end

