-- ==== Sys2Proof/Machine/Flags.lean ====
section
/-! DEFINITION. The engine has no flags register and no condition codes (10_state.md R32). What a command
decides as one bit is here: the status code of a response, the enables of an entry, the parity verdict. -/

namespace Sys2Proof.Machine

/-- The status codes (00_scope.md R14): `OK` 0, `CONFIG_ERROR` 1, `RANGE_ERROR` 2, `PARITY_ERROR` 3. -/
def Status.code : Status → Nat
  | .ok => 0
  | .configError => 1
  | .rangeError => 2
  | .parityError => 3

/-- The outcome code of a Resolution (45_resolver.md R189). -/
def Resolution.code : Resolution → Nat
  | .miss _ => 0
  | .hitWay .. => 1
  | .hitStash .. => 2

/-- A RamEntry is enabled exactly when `ne != 0` (10_state.md R25). -/
def RamEntry.enabled (e : RamEntry) : Bool := e.ne != 0

/-- A stash slot is populated when its `ben` is 1 (43_stash.md R152). -/
def StashEntry.populated (e : StashEntry) : Bool := e.ben

/-- `check(group, current_bits)` is ok (44_parity.md R165): the parity of the masked bits is the expected
one. -/
def checkOk (g : ParityGroup) (currentBits : BitVec 32) : Bool :=
  parity (currentBits &&& g.mask) == g.expected

end Sys2Proof.Machine
end

