-- ==== Sys2Proof/Machine/Ops.lean ====
section
/-! DEFINITION. The named operations over storage, registers and the output streams; raising an error,
the engine's one exception (60_exceptions.md R224); the order of checks (R226). -/

namespace Sys2Proof.Machine

/-! ## Arrays -/

/-- The element of key `a`; an unlisted element reads as `d`. -/
def Memory.read {α : Type} (d : α) : Memory α → Nat → α
  | [], _ => d
  | (k, x) :: m, a => if a = k then x else Memory.read d m a

/-- The array without a listed element of key `a`. -/
def Memory.erase {α : Type} (m : Memory α) (a : Nat) : Memory α := m.filter fun c => c.1 != a

/-- The array with element `x` listed at key `a`, in the order of keys. -/
def Memory.place {α : Type} : Memory α → Nat → α → Memory α
  | [], a, x => [(a, x)]
  | (k, y) :: m, a, x => if a < k then (a, x) :: (k, y) :: m else (k, y) :: Memory.place m a x

/-- The array with element `x` at key `a`, in canonical form: an element equal to `d` is not listed. -/
def Memory.write {α : Type} [DecidableEq α] (d : α) (m : Memory α) (a : Nat) (x : α) : Memory α :=
  if x = d then Memory.erase m a else Memory.place (Memory.erase m a) a x

/-- The key of `M[w][i]`. No two coordinates share a key (20_memory.md R50). -/
def matrixKey (w i : Nat) : Nat := Nat.pair w i

/-- The key of `RAM[w][r][b]`. -/
def ramKey (w r b : Nat) : Nat := Nat.pair w (Nat.pair r b)

/-- The key of `STASH[r][s]`. -/
def stashKey (r s : Nat) : Nat := Nat.pair r s

/-! ## Reading the state -/

/-- `WAYCFG[w]` (10_state.md R22). -/
def State.wayCfgAt (s : State) (w : Nat) : WayCfg := Memory.read WayCfg.zero s.wayCfg w

/-- `M[w][i]` (10_state.md R23). -/
def State.matrixAt (s : State) (w i : Nat) : Wide := Memory.read 0 s.matrix (matrixKey w i)

/-- `RAM[w][r][b]` (10_state.md R24). -/
def State.ramAt (s : State) (w r b : Nat) : RamEntry := Memory.read RamEntry.zero s.ram (ramKey w r b)

/-- `STASH[r][s]` (10_state.md R26). -/
def State.stashAt (s : State) (r slot : Nat) : StashEntry :=
  Memory.read StashEntry.zero s.stash (stashKey r slot)

/-- `PG[g]` (10_state.md R28). -/
def State.groupAt (s : State) (g : Nat) : ParityGroup := Memory.read ParityGroup.zero s.parityGroups g

/-- `SHIFTCOUNT[i]` (10_state.md R31). -/
def State.shiftAt (s : State) (i : Nat) : BitVec 8 := Memory.read 0 s.shiftCount i

/-- A way is configured exactly when `w < NW` and `WAYCFG[w].valid = 1` (40_hash.md R102). -/
def State.configured (s : State) (w : Nat) : Bool :=
  decide (w < s.params.nw) && (s.wayCfgAt w).valid

/-- `(r, b)` is a slot of a way's array. -/
def State.ramInRange (s : State) (r b : Nat) : Bool :=
  decide (r < s.params.nr) && decide (b < s.params.nb)

/-- `(r, s)` is a slot of the stash. -/
def State.stashInRange (s : State) (r slot : Nat) : Bool :=
  decide (r < s.params.nr) && decide (slot < s.params.ns)

/-! ## Writing the state -/

/-- `WAYCFG[w] <- c`. -/
def State.setWayCfg (s : State) (w : Nat) (c : WayCfg) : State :=
  { s with wayCfg := Memory.write WayCfg.zero s.wayCfg w c }

/-- `M[w][i] <- x`. -/
def State.setMatrix (s : State) (w i : Nat) (x : Wide) : State :=
  { s with matrix := Memory.write 0 s.matrix (matrixKey w i) x }

/-- `for i in 0 .. 63: M[w][i] <- 0` (40_hash.md R101). -/
def State.clearMatrix (s : State) (w : Nat) : State :=
  (List.range Config.hwMax).foldl (fun t i => t.setMatrix w i 0) s

/-- `RAM[w][r][b] <- e`. -/
def State.setRam (s : State) (w r b : Nat) (e : RamEntry) : State :=
  { s with ram := Memory.write RamEntry.zero s.ram (ramKey w r b) e }

/-- `STASH[r][s] <- e`. -/
def State.setStash (s : State) (r slot : Nat) (e : StashEntry) : State :=
  { s with stash := Memory.write StashEntry.zero s.stash (stashKey r slot) e }

/-- `ACTIVE_VERSION <- v`. -/
def State.setActiveVersion (s : State) (v : Version) : State := { s with activeVersion := v }

/-- `PG[g] <- x`. -/
def State.setGroup (s : State) (g : Nat) (x : ParityGroup) : State :=
  { s with parityGroups := Memory.write ParityGroup.zero s.parityGroups g x }

/-- `MISSDEF[k] <- x`. -/
def State.setMissDef (s : State) (k : Nat) (x : MissDefault) : State :=
  { s with missDef := s.missDef.setIfInBounds k x }

/-- `SHIFTCOUNT[i] <- x`. -/
def State.setShift (s : State) (i : Nat) (x : BitVec 8) : State :=
  { s with shiftCount := Memory.write 0 s.shiftCount i x }

/-! ## Outputs -/

/-- One response record per command, in command order (10_state.md R34). -/
def State.respond (s : State) (r : Response) : State := { s with responses := s.responses ++ [r] }

/-- Appends `ParityError(g)` for each `g` of the list, in its order (60_exceptions.md R231). -/
def State.report (s : State) (groups : List Nat) : State :=
  { s with events := s.events ++ groups.map Event.parityError }

/-! ## The end of a command -/

/-- The command completes with status `OK`. -/
def complete (p : Payload) (s : State) : Result := .next (s.respond ⟨.ok, p⟩)

/-- `raise`: the command ends at once, writes no state, puts nothing on the event stream and returns the
error as its status with no payload (60_exceptions.md R224). There is no other trap entry and no trap
return (R228, R229). -/
def raise (status : Status) (s : State) : Result := .next (s.respond ⟨status, .empty⟩)

/-- Every `ConfigError` condition is tested before every `RangeError` condition, and both before any
effect (60_exceptions.md R226). -/
def checked (configError rangeError : Bool) (s : State) (run : Result) : Result :=
  if configError then raise .configError s
  else if rangeError then raise .rangeError s
  else run

end Sys2Proof.Machine
end

