-- ==== Sys2Proof/Machine/Parity.lean ====
section
/-! DEFINITION. ParityValidator: image words (10_state.md R35, R36), `SET_PARITY_GROUP`, `PCHECK`, the
checks against storage, and the stored bits a soft error can flip (44_parity.md). -/

namespace Sys2Proof.Machine

/-! ## Image words -/

/-- Image word `wsel` of a way slot (10_state.md R35); there is none above 9. -/
def RamEntry.image (e : RamEntry) (wsel : Nat) : BitVec 32 :=
  if wsel < 4 then wordOfWide e.mask wsel
  else if wsel < 8 then wordOfWide e.data (wsel - 4)
  else if wsel = 8 then e.ne
  else if wsel = 9 then e.ver ++ e.ctl ++ e.vpn
  else 0

/-- Image word `wsel` of a stash slot (10_state.md R36); there is none above 9. -/
def StashEntry.image (e : StashEntry) (wsel : Nat) : BitVec 32 :=
  if wsel < 4 then wordOfWide e.mm wsel
  else if wsel < 8 then wordOfWide e.md (wsel - 4)
  else if wsel = 8 then 0#7 ++ BitVec.ofBool e.ben ++ e.rbs ++ e.idc
  else if wsel = 9 then 0#24 ++ e.ver
  else 0

/-- Image word `wsel` of a slot as it stands, enabled or not (44_parity.md R171). -/
def State.imageAt (s : State) (slot : SlotRef) (wsel : Nat) : BitVec 32 :=
  match slot with
  | .ram w r b => (s.ramAt w r b).image wsel
  | .stash r c => (s.stashAt r c).image wsel

/-- The slot exists. -/
def State.slotExists (s : State) : SlotRef → Bool
  | .ram w r b => decide (w < s.params.nw) && s.ramInRange r b
  | .stash r c => s.stashInRange r c

/-! ## Groups -/

/-- The slot a group is bound to (44_parity.md R170). -/
def ParityGroup.slot (g : ParityGroup) : SlotRef :=
  match g.kind with
  | .ram => .ram g.way g.row g.col
  | .stash => .stash g.row g.col

/-- `group_bits(g)` (44_parity.md R170). -/
def State.groupBits (s : State) (g : Nat) : BitVec 32 :=
  s.imageAt (s.groupAt g).slot (s.groupAt g).wsel

/-- `group_fails(g)` (44_parity.md R170). -/
def State.groupFails (s : State) (g : Nat) : Bool :=
  (s.groupAt g).valid && !checkOk (s.groupAt g) (s.groupBits g)

/-- `SET_PARITY_GROUP` (44_parity.md R167). With `valid = 0` every other operand is ignored and the group
is cleared. -/
def execSetParityGroup (group : Nat) (valid : Bool) (kind : SlotKind) (way row col wsel : Nat)
    (maskLo maskHi : BitVec 16) (expected : Bool) (s : State) : Result :=
  checked
    (valid && (!decide (wsel < Config.imageWords) ||
      match kind with
      | .ram => !decide (way < s.params.nw)
      | .stash => way != 0))
    (!decide (group < s.params.npg) || (valid &&
      match kind with
      | .ram => !s.ramInRange row col
      | .stash => !s.stashInRange row col)) s
    (complete .empty (s.setGroup group
      (if valid then ⟨true, kind, way, row, col, wsel, maskHi ++ maskLo, expected⟩
       else ParityGroup.zero)))

/-- `PCHECK` (44_parity.md R169): the verdict on supplied bits; the report is the response. -/
def execPcheck (group : Nat) (bits : BitVec 32) (s : State) : Result :=
  checked (decide (group < s.params.npg) && !(s.groupAt group).valid) (!decide (group < s.params.npg)) s
    (if checkOk (s.groupAt group) bits then complete .empty s
     else .next (s.respond ⟨.parityError, .group group⟩))

/-! ## Soft errors -/

/-- The number with only bit `i` set, at width `n`. -/
def oneBit (n i : Nat) : BitVec n := BitVec.ofNat n (2 ^ i)

/-- Bit `bit` of image word `wsel` of a way slot is backed by storage (10_state.md R35). -/
def ramBitBacked (p : Params) (wsel bit : Nat) : Bool :=
  decide (wsel < Config.imageWords) && decide (bit < if wsel = 9 then 24 + p.vw else 32)

/-- Bit `bit` of image word `wsel` of a stash slot is backed by storage (10_state.md R36). -/
def stashBitBacked (p : Params) (wsel bit : Nat) : Bool :=
  decide (wsel < Config.imageWords) &&
    decide (bit < if wsel = 9 then p.vw else if wsel = 8 then 25 else 32)

/-- The entry with bit `bit` of image word `wsel` flipped (10_state.md R35). -/
def RamEntry.flip (e : RamEntry) (wsel bit : Nat) : RamEntry :=
  if wsel < 4 then { e with mask := e.mask ^^^ oneBit 128 (32 * wsel + bit) }
  else if wsel < 8 then { e with data := e.data ^^^ oneBit 128 (32 * (wsel - 4) + bit) }
  else if wsel = 8 then { e with ne := e.ne ^^^ oneBit 32 bit }
  else if bit < 16 then { e with vpn := e.vpn ^^^ oneBit 16 bit }
  else if bit < 24 then { e with ctl := e.ctl ^^^ oneBit 8 (bit - 16) }
  else { e with ver := e.ver ^^^ oneBit 8 (bit - 24) }

/-- The entry with bit `bit` of image word `wsel` flipped (10_state.md R36). -/
def StashEntry.flip (e : StashEntry) (wsel bit : Nat) : StashEntry :=
  if wsel < 4 then { e with mm := e.mm ^^^ oneBit 128 (32 * wsel + bit) }
  else if wsel < 8 then { e with md := e.md ^^^ oneBit 128 (32 * (wsel - 4) + bit) }
  else if wsel = 8 then
    if bit < 16 then { e with idc := e.idc ^^^ oneBit 16 bit }
    else if bit < 24 then { e with rbs := e.rbs ^^^ oneBit 8 (bit - 16) }
    else { e with ben := !e.ben }
  else { e with ver := e.ver ^^^ oneBit 8 bit }

/-- A soft error can flip this bit: the slot exists and the bit is backed by storage (44_parity.md R178). -/
def State.corruptible (s : State) (slot : SlotRef) (wsel bit : Nat) : Bool :=
  s.slotExists slot &&
    match slot with
    | .ram .. => ramBitBacked s.params wsel bit
    | .stash .. => stashBitBacked s.params wsel bit

/-- The state with the bit flipped. -/
def State.flipBit (s : State) (slot : SlotRef) (wsel bit : Nat) : State :=
  match slot with
  | .ram w r b => s.setRam w r b ((s.ramAt w r b).flip wsel bit)
  | .stash r c => s.setStash r c ((s.stashAt r c).flip wsel bit)

end Sys2Proof.Machine
end

