-- ==== Sys2Proof/Machine/Resolver.lean ====
section
/-! DEFINITION. NextTableResolver: `SET_MISS_DEFAULT`, `SET_SHIFTCOUNT`, `resolve` (45_resolver.md). -/

namespace Sys2Proof.Machine

/-- `resolve(hits, stash_hit)` (45_resolver.md R188): lowest way index with a hit, else the stash hit, else
the miss defaults. The list has one entry for each way, in the order of way indices. -/
def State.resolve (s : State) (hits : List (Option WayHit)) (stashHit : Option StashHit) : Resolution :=
  match hits.findSome? id with
  | some h => .hitWay h (s.shiftAt h.way)
  | none =>
    match stashHit with
    | some h => .hitStash h (s.shiftAt s.params.nw)
    | none => .miss s.missDef

/-- `SET_MISS_DEFAULT` (45_resolver.md R186). -/
def execSetMissDefault (kind : Nat) (missValue mask dflt : BitVec 32) (s : State) : Result :=
  checked (!decide (kind < Config.missKinds)) false s
    (complete .empty (s.setMissDef kind ⟨missValue, mask, dflt⟩))

/-- `SET_SHIFTCOUNT` (45_resolver.md R187): entry `NW` is the stash's. -/
def execSetShiftcount (index : Nat) (count : BitVec 8) (s : State) : Result :=
  checked false (!decide (index ≤ s.params.nw)) s (complete .empty (s.setShift index count))

end Sys2Proof.Machine
end

