-- ==== Sys2Proof/Machine/Stash.lean ====
section
/-! DEFINITION. StashOverflow: `STASH_WRITE`, `PROBE` (43_stash.md). -/

namespace Sys2Proof.Machine

/-- `stash_match(e, key, av)` (43_stash.md R150). -/
def StashEntry.hits (e : StashEntry) (key : Wide) (av : Version) : Bool :=
  e.populated && e.ver == av && (key &&& e.mm) == (e.md &&& e.mm)

/-- The hit a slot gives, if its entry matches (43_stash.md R150). -/
def State.stashHitAt (s : State) (r : Nat) (key : Wide) (av : Version) (slot : Nat) : Option StashHit :=
  if (s.stashAt r slot).hits key av then
    some ⟨r, slot, (s.stashAt r slot).rbs, (s.stashAt r slot).idc⟩
  else none

/-- `probe_fn(r, key, av)` (43_stash.md R150): the lowest matching slot of the row wins (R152). -/
def State.probeFn (s : State) (r : Nat) (key : Wide) (av : Version) : Option StashHit :=
  (List.range s.params.ns).findSome? (s.stashHitAt r key av)

/-- `STASH_WRITE` (43_stash.md R151): all six fields of the slot are written together. -/
def execStashWrite (row slot : Nat) (ver : Version) (mm md : Wide) (idc : BitVec 16) (rbs : BitVec 8)
    (ben : Bool) (s : State) : Result :=
  checked (!versionFits s.params ver) (!s.stashInRange row slot) s
    (complete .empty (s.setStash row slot ⟨mm, md, idc, rbs, ben, ver⟩))

/-- `PROBE` (43_stash.md R153), under `ACTIVE_VERSION`. -/
def execProbe (row kw : Nat) (key : Wide) (s : State) : Result :=
  checked (!keyWidthLegal kw || !fitsWidth key kw) (!decide (row < s.params.nr)) s
    (complete (.stashHit (s.probeFn row key s.activeVersion)) s)

end Sys2Proof.Machine
end

