-- ==== Sys2Proof/Machine/Hash.lean ====
section
/-! DEFINITION. GaloisHasher: `CFG_WAY`, `SET_HASH_ROW`, `HASH` (40_hash.md). -/

namespace Sys2Proof.Machine

/-- `hash_fn(w, key)` (40_hash.md R100): bit `i < HW[w]` is the XOR of the key bits that row `i` of the
way's matrix selects. The bits at and above `HW[w]` are zero. -/
def State.hashFn (s : State) (w : Nat) (key : Wide) : Word :=
  let c := s.wayCfgAt w
  BitVec.ofNat 64
    (ofBits (fun i => xorUpTo (fun j => (s.matrixAt w i).getLsbD j && key.getLsbD j) c.kw) c.hw)

/-- The slice layout of a way is legal (10_state.md R22, 40_hash.md R101). -/
def layoutLegal (hw rowLo rowW bankLo bankW vpnLo vpnW : Nat) : Bool :=
  decide (rowW ≤ Config.rowWMax) && decide (bankW ≤ Config.bankWMax) && decide (vpnW ≤ Config.vpnWMax) &&
    decide (rowLo + rowW ≤ hw) && decide (bankLo + bankW ≤ hw) && decide (vpnLo + vpnW ≤ hw)

/-- The dimensions of a way are legal (40_hash.md R101). -/
def dimensionsLegal (kw hw : Nat) : Bool :=
  decide (1 ≤ kw) && decide (kw ≤ Config.kwMax) && decide (1 ≤ hw) && decide (hw ≤ Config.hwMax)

/-- `CFG_WAY` (40_hash.md R101). Layout `V1` is refused with `ConfigError` (10_state.md R40). -/
def execCfgWay (way kw hw rowLo rowW bankLo bankW vpnLo vpnW : Nat) (layout : HashLayout) (s : State) :
    Result :=
  checked
    (!decide (way < s.params.nw) || (s.wayCfgAt way).valid || !dimensionsLegal kw hw ||
      !layoutLegal hw rowLo rowW bankLo bankW vpnLo vpnW || layout == .v1)
    false s
    (complete .empty
      ((s.setWayCfg way ⟨true, kw, hw, rowLo, rowW, bankLo, bankW, vpnLo, vpnW, .v2⟩).clearMatrix way))

/-- `SET_HASH_ROW` (40_hash.md R103). -/
def execSetHashRow (way row kw : Nat) (sel : Wide) (s : State) : Result :=
  checked
    (!s.configured way || kw != (s.wayCfgAt way).kw || !decide (row < (s.wayCfgAt way).hw) ||
      !fitsWidth sel kw)
    false s
    (complete .empty (s.setMatrix way row sel))

/-- `HASH` (40_hash.md R105). -/
def execHash (way kw : Nat) (key : Wide) (s : State) : Result :=
  checked (!s.configured way || kw != (s.wayCfgAt way).kw || !fitsWidth key kw) false s
    (complete (.hash (s.hashFn way key)) s)

end Sys2Proof.Machine
end

