-- ==== Sys2Proof/Machine/BankMap.lean ====
section
/-! DEFINITION. BankAddressMapper: `MAP` (41_bank_map.md). -/

namespace Sys2Proof.Machine

/-- The slices of a hash by a way's layout (41_bank_map.md R120). The hash is one 64-bit value
`word1 ∥ word0`, so a slice may straddle bit 32 (R122). -/
def WayCfg.coord (c : WayCfg) (h : Word) : BankCoord where
  row := slice h c.rowLo c.rowW
  bank := slice h c.bankLo c.bankW
  vpn := BitVec.ofNat 16 (slice h c.vpnLo c.vpnW)

/-- The range test of `map_fn` (41_bank_map.md R120); the coordinate's `vpn` is never range-checked. -/
def State.coordInRange (s : State) (c : BankCoord) : Bool := s.ramInRange c.row c.bank

/-- `MAP` (41_bank_map.md R121). -/
def execMap (way : Nat) (hash : Word) (s : State) : Result :=
  checked (!s.configured way || !fitsWidth hash (s.wayCfgAt way).hw)
    (!s.coordInRange ((s.wayCfgAt way).coord hash)) s
    (complete (.coord ((s.wayCfgAt way).coord hash)) s)

end Sys2Proof.Machine
end

