-- ==== Sys2Proof/Machine/Way.lean ====
section
/-! DEFINITION. ExactMatchWay: `INSERT`, `EVICT`, `WAY_LOOKUP` (42_way.md). -/

namespace Sys2Proof.Machine

/-- The bits that are both "must match" and nibble-enabled (42_way.md R134). -/
def RamEntry.effectiveMask (e : RamEntry) : Wide := e.mask &&& nexp e.ne

/-- The hit condition of `way_match` (42_way.md R134); the key is zero-extended to 128 bits. -/
def RamEntry.hits (e : RamEntry) (key : Wide) (ver : Version) : Bool :=
  e.enabled && e.ver == ver && (key &&& e.effectiveMask) == (e.data &&& e.effectiveMask)

/-- `way_match(e, key, ver)` (42_way.md R134): the VPN stored in the entry on a hit. -/
def wayMatch (e : RamEntry) (key : Wide) (ver : Version) : Option (BitVec 16) :=
  if e.hits key ver then some e.vpn else none

/-- `INSERT` (42_way.md R131): the six fields of the slot are written together. -/
def execInsert (way row bank : Nat) (ver : Version) (mw : Nat) (mask : Wide) (dw : Nat) (data : Wide)
    (vpn : BitVec 16) (ne : BitVec 32) (ctl : BitVec 8) (s : State) : Result :=
  checked
    (!s.configured way || mw != dw || mw != (s.wayCfgAt way).kw || !fitsWidth mask mw ||
      !fitsWidth data dw || !fitsWidth ne (nibbles (s.wayCfgAt way).kw) || !versionFits s.params ver)
    (!s.ramInRange row bank) s
    (complete .empty (s.setRam way row bank ⟨mask, data, vpn, ne, ctl, ver⟩))

/-- `EVICT` (42_way.md R133): `ne <- 0`, every other field of the slot keeps its value. -/
def execEvict (way row bank : Nat) (s : State) : Result :=
  checked (!s.configured way) (!s.ramInRange row bank) s
    (complete .empty (s.setRam way row bank { s.ramAt way row bank with ne := 0 }))

/-- `WAY_LOOKUP` (42_way.md R135): `way_match` on one slot under the version of the frame. -/
def execWayLookup (way row bank : Nat) (ver : Version) (kw : Nat) (key : Wide) (s : State) : Result :=
  checked
    (!s.configured way || kw != (s.wayCfgAt way).kw || !fitsWidth key kw || !versionFits s.params ver)
    (!s.ramInRange row bank) s
    (complete (.wayHit (wayMatch (s.ramAt way row bank) key ver)) s)

end Sys2Proof.Machine
end

