-- ==== Sys2Proof/Machine/Lookup.lean ====
section
/-! DEFINITION. The lookup pipeline: `LOOKUP` (47_lookup.md). -/

namespace Sys2Proof.Machine

/-- The participating ways, ascending: exactly the configured ways (47_lookup.md R205, R206). -/
def State.participants (s : State) : List Nat := (List.range s.params.nw).filter s.configured

/-- The coordinate of a key in a way (47_lookup.md R206): `map_fn(w, hash_fn(w, key))`. -/
def State.coordOf (s : State) (key : Wide) (w : Nat) : BankCoord := (s.wayCfgAt w).coord (s.hashFn w key)

/-- What way `w` reports for the key under `av` (47_lookup.md R206); a way that does not take part
contributes none. -/
def State.wayHit (s : State) (key : Wide) (av : Version) (w : Nat) : Option WayHit :=
  if s.configured w then
    let c := s.coordOf key w
    (wayMatch (s.ramAt w c.row c.bank) key av).map fun vpn => ⟨w, c.row, c.bank, vpn⟩
  else none

/-- The hits of all ways, by way index. -/
def State.wayHits (s : State) (key : Wide) (av : Version) : List (Option WayHit) :=
  (List.range s.params.nw).map (s.wayHit key av)

/-- Every way missed. -/
def State.allMiss (s : State) (key : Wide) (av : Version) : Bool :=
  (s.wayHits key av).all fun h => h.isNone

/-- The stash stage (47_lookup.md R209): when every participating way missed, the row of each of them is
probed in ascending order of way index, and the first hit ends the stage. -/
def State.stashStage (s : State) (key : Wide) (av : Version) : Option StashHit :=
  if s.allMiss key av then
    s.participants.findSome? fun w => s.probeFn (s.coordOf key w).row key av
  else none

/-- The read set (47_lookup.md R211): the slot of every participating way and, when every way missed, every
slot of every probed stash row. -/
def State.readSet (s : State) (key : Wide) (av : Version) : List SlotRef :=
  (s.participants.map fun w => SlotRef.ram w (s.coordOf key w).row (s.coordOf key w).bank) ++
    if s.allMiss key av then
      s.participants.flatMap fun w =>
        (List.range s.params.ns).map fun slot => SlotRef.stash (s.coordOf key w).row slot
    else []

/-- The parity failures over a read set, in ascending order of group (47_lookup.md R212). -/
def State.parityFailures (s : State) (slots : List SlotRef) : List Nat :=
  (List.range s.params.npg).filter fun g => s.groupFails g && slots.contains (s.groupAt g).slot

/-- The Resolution of a key under `av` (47_lookup.md R206). -/
def State.resolution (s : State) (key : Wide) (av : Version) : Resolution :=
  s.resolve (s.wayHits key av) (s.stashStage key av)

/-- `LOOKUP` (47_lookup.md R206). `ACTIVE_VERSION` is read once and used throughout (R207). A parity
failure changes neither the status nor the Resolution (44_parity.md R179). -/
def execLookup (kw : Nat) (key : Wide) (s : State) : Result :=
  let av := s.activeVersion
  checked
    (!keyWidthLegal kw || !fitsWidth key kw || s.participants.any fun w => (s.wayCfgAt w).kw != kw)
    (s.participants.any fun w => !s.coordInRange (s.coordOf key w)) s
    (let perr := s.parityFailures (s.readSet key av)
     complete (.lookup (s.resolution key av) perr) (s.report perr))

end Sys2Proof.Machine
end

