-- ==== Sys2Proof/Machine/Version.lean ====
section
/-! DEFINITION. VersionGate: `SWAP_VERSION` (46_version.md). -/

namespace Sys2Proof.Machine

/-- `SWAP_VERSION` (46_version.md R200): any version may follow any other. -/
def execSwapVersion (ver : Version) (s : State) : Result :=
  checked (!versionFits s.params ver) false s (complete .empty (s.setActiveVersion ver))

end Sys2Proof.Machine
end

