-- ==== Sys2Proof/Machine/Dispatch.lean ====
section
/-! DEFINITION. One meaning for each command (30_encoding.md R74). -/

namespace Sys2Proof.Machine

def exec (i : Instr) (s : State) : Host.Outcome State Fault Refusal :=
  match i with
  | .cfgWay way kw hw rowLo rowW bankLo bankW vpnLo vpnW layout => Sys2Proof.Machine.execCfgWay way kw hw rowLo rowW bankLo bankW vpnLo vpnW layout s
  | .setHashRow way row kw sel => Sys2Proof.Machine.execSetHashRow way row kw sel s
  | .insert way row bank ver mw mask dw data vpn ne ctl => Sys2Proof.Machine.execInsert way row bank ver mw mask dw data vpn ne ctl s
  | .evict way row bank => Sys2Proof.Machine.execEvict way row bank s
  | .stashWrite row slot ver mm md idc rbs ben => Sys2Proof.Machine.execStashWrite row slot ver mm md idc rbs ben s
  | .swapVersion ver => Sys2Proof.Machine.execSwapVersion ver s
  | .setParityGroup group valid kind way row col wsel maskLo maskHi expected => Sys2Proof.Machine.execSetParityGroup group valid kind way row col wsel maskLo maskHi expected s
  | .setMissDefault kind missValue mask dflt => Sys2Proof.Machine.execSetMissDefault kind missValue mask dflt s
  | .setShiftcount index count => Sys2Proof.Machine.execSetShiftcount index count s
  | .lookup kw key => Sys2Proof.Machine.execLookup kw key s
  | .hash way kw key => Sys2Proof.Machine.execHash way kw key s
  | .map way hash => Sys2Proof.Machine.execMap way hash s
  | .wayLookup way row bank ver kw key => Sys2Proof.Machine.execWayLookup way row bank ver kw key s
  | .probe row kw key => Sys2Proof.Machine.execProbe row kw key s
  | .pcheck group bits => Sys2Proof.Machine.execPcheck group bits s

end Sys2Proof.Machine
end

