-- ==== Sys2Proof/WellFormed.lean ====
section
/-! DEFINITION. Which commands a frame can carry: every index and width fits the 8-bit field that
30_encoding.md R72 to R89 give it. An index that fits its field but not the instance is well formed;
it is an error of the command (R91). -/

namespace Sys2Proof

/-- `n` fits an 8-bit field. -/
def fits8 (n : Nat) : Bool := n < 256

/-- Every numeric operand fits its field. -/
def Instr.wellFormed : Instr → Bool
  | .cfgWay way kw hw rowLo rowW bankLo bankW vpnLo vpnW _ =>
      fits8 way && fits8 kw && fits8 hw && fits8 rowLo && fits8 rowW && fits8 bankLo && fits8 bankW &&
        fits8 vpnLo && fits8 vpnW
  | .setHashRow way row kw _ => fits8 way && fits8 row && fits8 kw
  | .insert way row bank _ mw _ dw _ _ _ _ =>
      fits8 way && fits8 row && fits8 bank && fits8 mw && fits8 dw
  | .evict way row bank => fits8 way && fits8 row && fits8 bank
  | .stashWrite row slot _ _ _ _ _ _ => fits8 row && fits8 slot
  | .swapVersion _ => true
  | .setParityGroup group _ _ way row col wsel _ _ _ =>
      fits8 group && fits8 way && fits8 row && fits8 col && fits8 wsel
  | .setMissDefault kind _ _ _ => fits8 kind
  | .setShiftcount index _ => fits8 index
  | .lookup kw _ => fits8 kw
  | .hash way kw _ => fits8 way && fits8 kw
  | .map way _ => fits8 way
  | .wayLookup way row bank _ kw _ => fits8 way && fits8 row && fits8 bank && fits8 kw
  | .probe row kw _ => fits8 row && fits8 kw
  | .pcheck group _ => fits8 group

end Sys2Proof
end

