-- ==== Sys2Proof/Decode.lean ====
section
/-! DEFINITION. The decoder of a frame, total and rejecting by name, and after it the encoder, both from
the layouts of 30_encoding.md R72 to R89; the stored-byte form of a frame (20_memory.md R58). -/

namespace Sys2Proof

/-! ## Fields -/

/-- The `n` bits of `w` from bit `lo` up (00_scope.md R10). -/
def field (w : Word) (lo n : Nat) : BitVec n := w.extractLsb' lo n

/-- A field read as a natural number (30_encoding.md R72). -/
def fieldNat (w : Word) (lo n : Nat) : Nat := (field w lo n).toNat

/-- The 128-bit operand carried as its low word and then its high word (30_encoding.md R73). -/
def wide (lo hi : Word) : Wide := hi ++ lo

/-- `x[63:0]`. -/
def wideLow (x : Wide) : Word := x.extractLsb' 0 64

/-- `x[127:64]`. -/
def wideHigh (x : Wide) : Word := x.extractLsb' 64 64

/-- The bit `hlv` as a layout (10_state.md R22, R40). -/
def HashLayout.ofBit (b : Bool) : HashLayout := if b then .v2 else .v1

/-- A layout as the bit `hlv`. -/
def HashLayout.bit : HashLayout → Bool
  | .v1 => false
  | .v2 => true

/-- The bit `kind` as a slot kind (10_state.md R28). -/
def SlotKind.ofBit (b : Bool) : SlotKind := if b then .stash else .ram

/-- A slot kind as the bit `kind`. -/
def SlotKind.bit : SlotKind → Bool
  | .ram => false
  | .stash => true

/-- The header fields of `W0` (30_encoding.md R72). -/
def Header.parse (w : Word) : Header where
  op := field w 0 8
  a := field w 8 8
  r := field w 16 8
  c := field w 24 8
  v := field w 32 8
  kw := field w 40 8
  imm := field w 48 16

/-- `W0` from its fields (30_encoding.md R72). -/
def Header.build (h : Header) : Word := h.imm ++ h.kw ++ h.v ++ h.c ++ h.r ++ h.a ++ h.op

/-! ## The decoder -/

/-- The command `i` when every reserved bit is zero, the rejection of 30_encoding.md R90 (c) otherwise. -/
def ifReservedZero (reservedZero : Bool) (i : Instr) : Except IllegalFrame Instr :=
  if reservedZero then .ok i else .error .reservedNotZero

/-- `CFG_WAY` (30_encoding.md R75). -/
def decodeCfgWay (h : Header) : List Word → Except IllegalFrame Instr
  | [w1] =>
    ifReservedZero (h.r == 0 && h.c == 0 && h.v == 0 && h.imm == 0 && field w1 57 7 == 0)
      (.cfgWay h.a.toNat h.kw.toNat (fieldNat w1 0 8) (fieldNat w1 8 8) (fieldNat w1 16 8)
        (fieldNat w1 24 8) (fieldNat w1 32 8) (fieldNat w1 40 8) (fieldNat w1 48 8)
        (.ofBit (w1.getLsbD 56)))
  | _ => .error .wrongWordCount

/-- `SET_HASH_ROW` (30_encoding.md R76). -/
def decodeSetHashRow (h : Header) : List Word → Except IllegalFrame Instr
  | [w1, w2] =>
    ifReservedZero (h.c == 0 && h.v == 0 && h.imm == 0)
      (.setHashRow h.a.toNat h.r.toNat h.kw.toNat (wide w1 w2))
  | _ => .error .wrongWordCount

/-- `INSERT` (30_encoding.md R77). -/
def decodeInsert (h : Header) : List Word → Except IllegalFrame Instr
  | [w1, w2, w3, w4, w5] =>
    ifReservedZero (field w5 48 16 == 0)
      (.insert h.a.toNat h.r.toNat h.c.toNat h.v h.kw.toNat (wide w1 w2) (fieldNat w5 40 8)
        (wide w3 w4) h.imm (field w5 0 32) (field w5 32 8))
  | _ => .error .wrongWordCount

/-- `EVICT` (30_encoding.md R78). -/
def decodeEvict (h : Header) : List Word → Except IllegalFrame Instr
  | [] =>
    ifReservedZero (h.v == 0 && h.kw == 0 && h.imm == 0) (.evict h.a.toNat h.r.toNat h.c.toNat)
  | _ => .error .wrongWordCount

/-- `STASH_WRITE` (30_encoding.md R79). -/
def decodeStashWrite (h : Header) : List Word → Except IllegalFrame Instr
  | [w1, w2, w3, w4, w5] =>
    ifReservedZero (h.a == 0 && h.kw == 0 && h.imm == 0 && field w5 25 39 == 0)
      (.stashWrite h.r.toNat h.c.toNat h.v (wide w1 w2) (wide w3 w4) (field w5 0 16) (field w5 16 8)
        (w5.getLsbD 24))
  | _ => .error .wrongWordCount

/-- `SWAP_VERSION` (30_encoding.md R80). -/
def decodeSwapVersion (h : Header) : List Word → Except IllegalFrame Instr
  | [] =>
    ifReservedZero (h.a == 0 && h.r == 0 && h.c == 0 && h.kw == 0 && h.imm == 0) (.swapVersion h.v)
  | _ => .error .wrongWordCount

/-- `SET_PARITY_GROUP` (30_encoding.md R81). -/
def decodeSetParityGroup (h : Header) : List Word → Except IllegalFrame Instr
  | [w1] =>
    ifReservedZero (h.c == 0 && h.v == 0 && h.kw == 0 && h.imm == 0 && field w1 3 5 == 0)
      (.setParityGroup h.a.toNat (w1.getLsbD 0) (.ofBit (w1.getLsbD 1)) (fieldNat w1 8 8)
        (fieldNat w1 16 8) (fieldNat w1 24 8) h.r.toNat (field w1 32 16) (field w1 48 16)
        (w1.getLsbD 2))
  | _ => .error .wrongWordCount

/-- `SET_MISS_DEFAULT` (30_encoding.md R82). -/
def decodeSetMissDefault (h : Header) : List Word → Except IllegalFrame Instr
  | [w1, w2] =>
    ifReservedZero
      (h.r == 0 && h.c == 0 && h.v == 0 && h.kw == 0 && h.imm == 0 && field w2 32 32 == 0)
      (.setMissDefault h.a.toNat (field w1 0 32) (field w1 32 32) (field w2 0 32))
  | _ => .error .wrongWordCount

/-- `SET_SHIFTCOUNT` (30_encoding.md R83). -/
def decodeSetShiftcount (h : Header) : List Word → Except IllegalFrame Instr
  | [] =>
    ifReservedZero (h.r == 0 && h.c == 0 && h.v == 0 && h.kw == 0 && h.imm.extractLsb' 8 8 == 0)
      (.setShiftcount h.a.toNat (h.imm.extractLsb' 0 8))
  | _ => .error .wrongWordCount

/-- `LOOKUP` (30_encoding.md R84). -/
def decodeLookup (h : Header) : List Word → Except IllegalFrame Instr
  | [w1, w2] =>
    ifReservedZero (h.a == 0 && h.r == 0 && h.c == 0 && h.v == 0 && h.imm == 0)
      (.lookup h.kw.toNat (wide w1 w2))
  | _ => .error .wrongWordCount

/-- `HASH` (30_encoding.md R85). -/
def decodeHash (h : Header) : List Word → Except IllegalFrame Instr
  | [w1, w2] =>
    ifReservedZero (h.r == 0 && h.c == 0 && h.v == 0 && h.imm == 0)
      (.hash h.a.toNat h.kw.toNat (wide w1 w2))
  | _ => .error .wrongWordCount

/-- `MAP` (30_encoding.md R86). -/
def decodeMap (h : Header) : List Word → Except IllegalFrame Instr
  | [w1] =>
    ifReservedZero (h.r == 0 && h.c == 0 && h.v == 0 && h.kw == 0 && h.imm == 0)
      (.map h.a.toNat w1)
  | _ => .error .wrongWordCount

/-- `WAY_LOOKUP` (30_encoding.md R87). -/
def decodeWayLookup (h : Header) : List Word → Except IllegalFrame Instr
  | [w1, w2] =>
    ifReservedZero (h.imm == 0)
      (.wayLookup h.a.toNat h.r.toNat h.c.toNat h.v h.kw.toNat (wide w1 w2))
  | _ => .error .wrongWordCount

/-- `PROBE` (30_encoding.md R88). -/
def decodeProbe (h : Header) : List Word → Except IllegalFrame Instr
  | [w1, w2] =>
    ifReservedZero (h.a == 0 && h.c == 0 && h.v == 0 && h.imm == 0)
      (.probe h.r.toNat h.kw.toNat (wide w1 w2))
  | _ => .error .wrongWordCount

/-- `PCHECK` (30_encoding.md R89). -/
def decodePcheck (h : Header) : List Word → Except IllegalFrame Instr
  | [w1] =>
    ifReservedZero (h.r == 0 && h.c == 0 && h.v == 0 && h.kw == 0 && h.imm == 0 && field w1 32 32 == 0)
      (.pcheck h.a.toNat (field w1 0 32))
  | _ => .error .wrongWordCount

/-- The command of a frame whose header is `h`, by the opcode map of 30_encoding.md R74. -/
def decodeFields (h : Header) (payload : List Word) : Except IllegalFrame Instr :=
  match h.op.toNat with
  | 0x01 => decodeCfgWay h payload
  | 0x02 => decodeSetHashRow h payload
  | 0x03 => decodeInsert h payload
  | 0x04 => decodeEvict h payload
  | 0x05 => decodeStashWrite h payload
  | 0x06 => decodeSwapVersion h payload
  | 0x07 => decodeSetParityGroup h payload
  | 0x08 => decodeSetMissDefault h payload
  | 0x09 => decodeSetShiftcount h payload
  | 0x10 => decodeLookup h payload
  | 0x11 => decodeHash h payload
  | 0x12 => decodeMap h payload
  | 0x13 => decodeWayLookup h payload
  | 0x14 => decodeProbe h payload
  | 0x15 => decodePcheck h payload
  | _ => .error .unknownOpcode

/-- The decoder: every frame is one of the fifteen commands or illegal (30_encoding.md R90). -/
def decode (f : Frame) : Except IllegalFrame Instr := decodeFields (.parse f.header) f.payload

/-! ## The encoder -/

/-- A header with only an opcode, the others zero. -/
def Header.ofOp (op : BitVec 8) : Header := ⟨op, 0, 0, 0, 0, 0, 0⟩

/-- The header of a command (30_encoding.md R75 to R89). -/
def encodeHeader (i : Instr) : Header :=
  let h := Header.ofOp i.opcode
  match i with
  | .cfgWay way kw .. => { h with a := .ofNat 8 way, kw := .ofNat 8 kw }
  | .setHashRow way row kw _ => { h with a := .ofNat 8 way, r := .ofNat 8 row, kw := .ofNat 8 kw }
  | .insert way row bank ver mw _ _ _ vpn _ _ =>
      { h with a := .ofNat 8 way, r := .ofNat 8 row, c := .ofNat 8 bank, v := ver, kw := .ofNat 8 mw,
               imm := vpn }
  | .evict way row bank => { h with a := .ofNat 8 way, r := .ofNat 8 row, c := .ofNat 8 bank }
  | .stashWrite row slot ver .. => { h with r := .ofNat 8 row, c := .ofNat 8 slot, v := ver }
  | .swapVersion ver => { h with v := ver }
  | .setParityGroup group _ _ _ _ _ wsel _ _ _ =>
      { h with a := .ofNat 8 group, r := .ofNat 8 wsel }
  | .setMissDefault kind .. => { h with a := .ofNat 8 kind }
  | .setShiftcount index count => { h with a := .ofNat 8 index, imm := 0#8 ++ count }
  | .lookup kw _ => { h with kw := .ofNat 8 kw }
  | .hash way kw _ => { h with a := .ofNat 8 way, kw := .ofNat 8 kw }
  | .map way _ => { h with a := .ofNat 8 way }
  | .wayLookup way row bank ver kw _ =>
      { h with a := .ofNat 8 way, r := .ofNat 8 row, c := .ofNat 8 bank, v := ver, kw := .ofNat 8 kw }
  | .probe row kw _ => { h with r := .ofNat 8 row, kw := .ofNat 8 kw }
  | .pcheck group _ => { h with a := .ofNat 8 group }

/-- The words after the header (30_encoding.md R75 to R89), each written from its high bits down. -/
def encodePayload : Instr → List Word
  | .cfgWay _ _ hw rowLo rowW bankLo bankW vpnLo vpnW layout =>
      [0#7 ++ BitVec.ofBool layout.bit ++ BitVec.ofNat 8 vpnW ++ BitVec.ofNat 8 vpnLo ++
        BitVec.ofNat 8 bankW ++ BitVec.ofNat 8 bankLo ++ BitVec.ofNat 8 rowW ++
        BitVec.ofNat 8 rowLo ++ BitVec.ofNat 8 hw]
  | .setHashRow _ _ _ sel => [wideLow sel, wideHigh sel]
  | .insert _ _ _ _ _ mask dw data _ ne ctl =>
      [wideLow mask, wideHigh mask, wideLow data, wideHigh data,
        0#16 ++ BitVec.ofNat 8 dw ++ ctl ++ ne]
  | .evict .. => []
  | .stashWrite _ _ _ mm md idc rbs ben =>
      [wideLow mm, wideHigh mm, wideLow md, wideHigh md, 0#39 ++ BitVec.ofBool ben ++ rbs ++ idc]
  | .swapVersion _ => []
  | .setParityGroup _ valid kind way row col _ maskLo maskHi expected =>
      [maskHi ++ maskLo ++ BitVec.ofNat 8 col ++ BitVec.ofNat 8 row ++ BitVec.ofNat 8 way ++ 0#5 ++
        BitVec.ofBool expected ++ BitVec.ofBool kind.bit ++ BitVec.ofBool valid]
  | .setMissDefault _ missValue mask dflt => [mask ++ missValue, 0#32 ++ dflt]
  | .setShiftcount .. => []
  | .lookup _ key => [wideLow key, wideHigh key]
  | .hash _ _ key => [wideLow key, wideHigh key]
  | .map _ hash => [hash]
  | .wayLookup _ _ _ _ _ key => [wideLow key, wideHigh key]
  | .probe _ _ key => [wideLow key, wideHigh key]
  | .pcheck _ bits => [0#32 ++ bits]

/-- The frame of a command (30_encoding.md R75 to R89). -/
def encode (i : Instr) : Frame := ⟨(encodeHeader i).build, encodePayload i⟩

/-! ## Word counts, stored bytes, and a frame read from one number -/

/-- The number of words of the frame with opcode `op` (30_encoding.md R74); 1 where `op` is in no row. -/
def frameWords (op : BitVec 8) : Nat :=
  match op.toNat with
  | 0x01 | 0x07 | 0x12 | 0x15 => 2
  | 0x02 | 0x08 | 0x10 | 0x11 | 0x13 | 0x14 => 3
  | 0x03 | 0x05 => 6
  | _ => 1

/-- The words of a frame, `W0` first. -/
def Frame.words (f : Frame) : List Word := f.header :: f.payload

/-- Byte `n` of a word is `word[8n+7 : 8n]`, byte 0 first (20_memory.md R58). -/
def bytesOfWord (w : Word) : List Byte := (List.range 8).map fun n => w.extractLsb' (8 * n) 8

/-- A frame stored as bytes (20_memory.md R58). -/
def Frame.toBytes (f : Frame) : List Byte := f.words.flatMap bytesOfWord

/-- The words of a list of stored bytes (20_memory.md R58); none unless it is a whole number of words. -/
def wordsOfBytes : List Byte → Option (List Word)
  | [] => some []
  | b0 :: b1 :: b2 :: b3 :: b4 :: b5 :: b6 :: b7 :: rest =>
      (wordsOfBytes rest).map fun ws => (b7 ++ b6 ++ b5 ++ b4 ++ b3 ++ b2 ++ b1 ++ b0 : Word) :: ws
  | _ => none

/-- The frame stored in a list of bytes, of at least one word. -/
def Frame.ofBytes (bytes : List Byte) : Option Frame :=
  match wordsOfBytes bytes with
  | some (w0 :: ws) => some ⟨w0, ws⟩
  | _ => none

/-- Word `k` of the number `n`: bits `64k+63 .. 64k`. -/
def wordOfNat (n k : Nat) : Word := BitVec.ofNat 64 (n >>> (64 * k))

/-- The frame whose bits are the low `nbits` bits of `w`, bit 0 the least significant bit of `W0`, and
every bit above them 0: as many words as `nbits` takes, and no fewer than its opcode has. -/
def frameOfNumber (nbits w : Nat) : Frame :=
  let n := w % 2 ^ nbits
  let header := wordOfNat n 0
  let count := max ((nbits + 63) / 64) (frameWords (field header 0 8))
  ⟨header, (List.range (count - 1)).map fun k => wordOfNat n (k + 1)⟩

/-- The command the decoder reads from an instruction whose bits are `w`. -/
def decodeTableWord (nbits w : Nat) : Option Instr :=
  match decode (frameOfNumber nbits w) with
  | .ok i => some i
  | .error _ => none

end Sys2Proof
end

