-- ==== Sys2Proof/Machine/Harness.lean ====
section
/-! DEFINITION. What the agents other than the command executor do (00_scope.md R8): the harness presents a
frame or applies reset, the scrubber visits a group, the corruption environment flips a bit. -/

namespace Sys2Proof.Machine

/-- An illegal frame is refused with `CONFIG_ERROR` and writes no state (30_encoding.md R90). -/
def refuseFrame (_ : IllegalFrame) (s : State) : Result := raise .configError s

/-- The state once the first scheduled step is taken from the schedule. -/
def State.advance (s : State) : State := { s with pending := s.pending.tail }

/-- The state once the harness has handed over its next frame: each command advances the harness's index by
exactly 1 whatever the command's status (10_state.md R21). -/
def State.takeCommand (s : State) : State := { s.advance with position := s.position + 1 }

/-- A scrubber step on group `g` (44_parity.md R176): it is enabled for a valid group, reports the group if
it fails, and writes no state of the engine. -/
def scrubStep (g : Nat) (s : State) : Result :=
  if decide (g < s.params.npg) && (s.groupAt g).valid then
    .next (if s.groupFails g then s.report [g] else s)
  else .fault .scrubNotEnabled

/-- A corruption step (44_parity.md R178): one stored bit flips; no response, no event, no parity group
changes. -/
def corruptStep (slot : SlotRef) (wsel bit : Nat) (s : State) : Result :=
  if s.corruptible slot wsel bit then .next (s.flipBit slot wsel bit)
  else .fault .corruptNotEnabled

/-- Reset (70_reset_and_hazards.md R250): every piece of state at its reset value, both streams empty. The
schedule and the index are the harness's and stay. -/
def resetStep (s : State) : Result :=
  .next { State.resetFor s.params with pending := s.pending, position := s.position }

end Sys2Proof.Machine
end

