-- ==== Sys2Proof/Machine/Step.lean ====
section
/-! DEFINITION. One step of the machine: the next scheduled step of one agent (00_scope.md R8). -/

namespace Sys2Proof.Machine

/-- The state in which the harness's very next step presents the instruction whose bits are `w`. -/
def State.withFetchWord (s : State) (nbits w : Nat) : State :=
  { s with pending := .command (frameOfNumber nbits w) :: s.pending }

/-- One step. With nothing scheduled the engine waits: nothing changes. -/
def step (s : State) : Host.Outcome State Fault Refusal :=
  match s.pending with
  | [] => .next s
  | .command f :: _ =>
    match decode f with
    | .ok i => exec i s.takeCommand
    | .error e => refuseFrame e s.takeCommand
  | .scrub g :: _ => scrubStep g s.advance
  | .corrupt slot wsel bit :: _ => corruptStep slot wsel bit s.advance
  | .reset :: _ => resetStep s.advance

end Sys2Proof.Machine
end

