-- ==== Sys2Proof/Machine/Table.lean ====
section
/-! DEFINITION. The opcode table, one row a command: the word count, the match and mask of `W0`, and the
bits of each later word that are reserved as zero (30_encoding.md R74 to R90). -/

namespace Sys2Proof

/-- A row of the opcode table. A header fits the row when its bits under `mask` are `pattern`: the opcode,
and zero in every header field the command does not use. -/
structure OpcodeRow where
  pattern : Word
  mask : Word
  /-- One mask of reserved bits for each word after `W0`. -/
  reserved : List Word
deriving DecidableEq, Repr

/-- The rows of spec/opcode_table.json, in its order. -/
def opcodeTable : List OpcodeRow :=
  [⟨0x01, 0xFFFF00FFFFFF00FF, [0xFE00000000000000]⟩,
   ⟨0x02, 0xFFFF00FFFF0000FF, [0, 0]⟩,
   ⟨0x03, 0x00000000000000FF, [0, 0, 0, 0, 0xFFFF000000000000]⟩,
   ⟨0x04, 0xFFFFFFFF000000FF, []⟩,
   ⟨0x05, 0xFFFFFF000000FFFF, [0, 0, 0, 0, 0xFFFFFFFFFE000000]⟩,
   ⟨0x06, 0xFFFFFF00FFFFFFFF, []⟩,
   ⟨0x07, 0xFFFFFFFFFF0000FF, [0x00000000000000F8]⟩,
   ⟨0x08, 0xFFFFFFFFFFFF00FF, [0, 0xFFFFFFFF00000000]⟩,
   ⟨0x09, 0xFF00FFFFFFFF00FF, []⟩,
   ⟨0x10, 0xFFFF00FFFFFFFFFF, [0, 0]⟩,
   ⟨0x11, 0xFFFF00FFFFFF00FF, [0, 0]⟩,
   ⟨0x12, 0xFFFFFFFFFFFF00FF, [0]⟩,
   ⟨0x13, 0xFFFF0000000000FF, [0, 0]⟩,
   ⟨0x14, 0xFFFF00FFFF00FFFF, [0, 0]⟩,
   ⟨0x15, 0xFFFFFFFFFFFF00FF, [0xFFFFFFFF00000000]⟩]

/-- Every later word of the frame has its reserved bits zero, and there are as many as the row has. -/
def payloadFits : List Word → List Word → Bool
  | [], [] => true
  | m :: ms, w :: ws => w &&& m == 0 && payloadFits ms ws
  | _, _ => false

/-- The frame fits the row. -/
def OpcodeRow.fits (row : OpcodeRow) (f : Frame) : Bool :=
  f.header &&& row.mask == row.pattern && payloadFits row.reserved f.payload

/-- The frame is not illegal (30_encoding.md R90): it fits some row of the table. -/
def Frame.legal (f : Frame) : Bool := opcodeTable.any fun row => row.fits f

end Sys2Proof
end

