-- ==== Sys2Proof/Safety.lean ====
section
/-! DEFINITION. What claims speak of: the invariants of the machine (10_state.md R39), the causes of each
error (60_exceptions.md R221, R222), and what "the same engine state" means (00_scope.md R9). -/

namespace Sys2Proof.Machine

/-! ## Invariants -/

/-- The legal values of a configured way's record (10_state.md R22, R39 (d)). -/
structure WayCfg.Legal (c : WayCfg) : Prop where
  kw : 1 ≤ c.kw ∧ c.kw ≤ 128
  hw : 1 ≤ c.hw ∧ c.hw ≤ 64
  row : c.rowW ≤ 8 ∧ c.rowLo + c.rowW ≤ c.hw
  bank : c.bankW ≤ 8 ∧ c.bankLo + c.bankW ≤ c.hw
  vpn : c.vpnW ≤ 16 ∧ c.vpnLo + c.vpnW ≤ c.hw
  layout : c.hlv = .v2

/-- What `SET_PARITY_GROUP` lets stand in a group record (44_parity.md R167): a valid group is bound to an
image word of a slot that exists, and a group that is not valid has every field 0. -/
def ParityGroup.Legal (p : Params) (g : ParityGroup) : Prop :=
  if g.valid then
    g.wsel < 10 ∧ g.row < p.nr ∧
      match g.kind with
      | .ram => g.way < p.nw ∧ g.col < p.nb
      | .stash => g.way = 0 ∧ g.col < p.ns
  else g = ParityGroup.zero

/-- Every array is in its canonical form (log 4). -/
structure State.Canonical (s : State) : Prop where
  wayCfg : Memory.wf WayCfg.zero s.wayCfg
  matrix : Memory.wf 0 s.matrix
  ram : Memory.wf RamEntry.zero s.ram
  stash : Memory.wf StashEntry.zero s.stash
  groups : Memory.wf ParityGroup.zero s.parityGroups
  shifts : Memory.wf 0 s.shiftCount

/-- What holds in every state that any agent's steps reach from reset: the parameters are in range, every
array is canonical and holds nothing outside its dimensions, way records are legal (10_state.md R39 (d)),
matrices are confined to `HW` rows of `KW` bits and zero for an unconfigured way (R39 (b) and the matrix half
of (c)), versions fit `VW` bits, and group records are legal. -/
structure State.Inv (s : State) : Prop where
  params : s.params.wf
  canonical : s.Canonical
  wayCfg : ∀ w, if s.configured w then (s.wayCfgAt w).Legal else s.wayCfgAt w = WayCfg.zero
  matrix : ∀ w i, s.matrixAt w i ≠ 0 →
    s.configured w = true ∧ i < (s.wayCfgAt w).hw ∧ (s.matrixAt w i).toNat < 2 ^ (s.wayCfgAt w).kw
  ram : ∀ w r b, s.ramAt w r b ≠ RamEntry.zero →
    w < s.params.nw ∧ r < s.params.nr ∧ b < s.params.nb ∧ (s.ramAt w r b).ver.toNat < 2 ^ s.params.vw
  stash : ∀ r c, s.stashAt r c ≠ StashEntry.zero →
    r < s.params.nr ∧ c < s.params.ns ∧ (s.stashAt r c).ver.toNat < 2 ^ s.params.vw
  activeVersion : s.activeVersion.toNat < 2 ^ s.params.vw
  groups : ∀ g, (s.groupAt g).Legal s.params ∧ ((s.groupAt g).valid = true → g < s.params.npg)
  shifts : ∀ i, s.shiftAt i ≠ 0 → i ≤ s.params.nw

/-- What holds besides while no soft error has occurred (10_state.md R39 (a) and the slot half of (c)):
entries of a configured way are confined to its key width, and the slots of an unconfigured way are at their
reset value. -/
def State.EntriesConfined (s : State) : Prop :=
  ∀ w r b,
    if s.configured w then
      (s.ramAt w r b).mask.toNat < 2 ^ (s.wayCfgAt w).kw ∧
      (s.ramAt w r b).data.toNat < 2 ^ (s.wayCfgAt w).kw ∧
      (s.ramAt w r b).ne.toNat < 2 ^ (((s.wayCfgAt w).kw + 3) / 4)
    else s.ramAt w r b = RamEntry.zero

/-- The next scheduled step is a soft error (44_parity.md R178). -/
def State.corruptsNext (s : State) : Prop := ∃ slot wsel bit, s.pending.head? = some (.corrupt slot wsel bit)

/-- The engine's own state (00_scope.md R9): what the outputs, the schedule and the harness's index leave. -/
def State.engine (s : State) : State :=
  { s with responses := [], events := [], pending := [], position := 0 }

/-! ## Causes of errors -/

/-- Way `w` does not exist or is not configured (40_hash.md R102). -/
abbrev State.NoWay (s : State) (w : Nat) : Prop := s.params.nw ≤ w ∨ (s.wayCfgAt w).valid = false

/-- `(r, b)` is no slot of a way's array. -/
abbrev State.NoRamSlot (s : State) (r b : Nat) : Prop := s.params.nr ≤ r ∨ s.params.nb ≤ b

/-- `(r, c)` is no slot of the stash. -/
abbrev State.NoStashSlot (s : State) (r c : Nat) : Prop := s.params.nr ≤ r ∨ s.params.ns ≤ c

/-- The value has a 1 bit at or above bit `w`. -/
abbrev OverWide {n : Nat} (v : BitVec n) (w : Nat) : Prop := ∃ i, i < n ∧ w ≤ i ∧ v.getLsbD i = true

/-- The causes of `ConfigError` of each command beyond an illegal frame (60_exceptions.md R221). -/
def State.ConfigCause (s : State) : Instr → Prop
  | .cfgWay way kw hw rowLo rowW bankLo bankW vpnLo vpnW layout =>
      s.params.nw ≤ way ∨ (s.wayCfgAt way).valid = true ∨ ¬(1 ≤ kw ∧ kw ≤ 128) ∨ ¬(1 ≤ hw ∧ hw ≤ 64) ∨
        8 < rowW ∨ 8 < bankW ∨ 16 < vpnW ∨
        hw < rowLo + rowW ∨ hw < bankLo + bankW ∨ hw < vpnLo + vpnW ∨ layout = .v1
  | .setHashRow way row kw sel =>
      s.NoWay way ∨ kw ≠ (s.wayCfgAt way).kw ∨ (s.wayCfgAt way).hw ≤ row ∨ OverWide sel kw
  | .hash way kw key => s.NoWay way ∨ kw ≠ (s.wayCfgAt way).kw ∨ OverWide key kw
  | .map way hash => s.NoWay way ∨ OverWide hash (s.wayCfgAt way).hw
  | .insert way _ _ ver mw mask dw data _ ne _ =>
      s.NoWay way ∨ mw ≠ dw ∨ mw ≠ (s.wayCfgAt way).kw ∨ OverWide mask mw ∨ OverWide data dw ∨
        OverWide ne (((s.wayCfgAt way).kw + 3) / 4) ∨ 2 ^ s.params.vw ≤ ver.toNat
  | .evict way _ _ => s.NoWay way
  | .wayLookup way _ _ ver kw key =>
      s.NoWay way ∨ kw ≠ (s.wayCfgAt way).kw ∨ OverWide key kw ∨ 2 ^ s.params.vw ≤ ver.toNat
  | .stashWrite _ _ ver _ _ _ _ _ => 2 ^ s.params.vw ≤ ver.toNat
  | .probe _ kw key => ¬(1 ≤ kw ∧ kw ≤ 128) ∨ OverWide key kw
  | .swapVersion ver => 2 ^ s.params.vw ≤ ver.toNat
  | .setParityGroup _ valid kind way _ _ wsel _ _ _ =>
      valid = true ∧ (9 < wsel ∨ kind = .ram ∧ s.params.nw ≤ way ∨ kind = .stash ∧ way ≠ 0)
  | .pcheck group _ => group < s.params.npg ∧ (s.groupAt group).valid = false
  | .setMissDefault kind _ _ _ => 4 < kind
  | .setShiftcount _ _ => False
  | .lookup kw key =>
      ¬(1 ≤ kw ∧ kw ≤ 128) ∨ OverWide key kw ∨
        ∃ w, w < s.params.nw ∧ (s.wayCfgAt w).valid = true ∧ (s.wayCfgAt w).kw ≠ kw

/-- The causes of `RangeError` of each command (60_exceptions.md R222). -/
def State.RangeCause (s : State) : Instr → Prop
  | .map way hash =>
      s.NoRamSlot (slice hash (s.wayCfgAt way).rowLo (s.wayCfgAt way).rowW)
        (slice hash (s.wayCfgAt way).bankLo (s.wayCfgAt way).bankW)
  | .lookup _ key =>
      ∃ w, w < s.params.nw ∧ (s.wayCfgAt w).valid = true ∧
        s.NoRamSlot (slice (s.hashFn w key) (s.wayCfgAt w).rowLo (s.wayCfgAt w).rowW)
          (slice (s.hashFn w key) (s.wayCfgAt w).bankLo (s.wayCfgAt w).bankW)
  | .insert _ row bank _ _ _ _ _ _ _ _ => s.NoRamSlot row bank
  | .evict _ row bank => s.NoRamSlot row bank
  | .wayLookup _ row bank _ _ _ => s.NoRamSlot row bank
  | .stashWrite row slot _ _ _ _ _ _ => s.NoStashSlot row slot
  | .probe row _ _ => s.params.nr ≤ row
  | .setParityGroup group valid kind _ row col _ _ _ _ =>
      s.params.npg ≤ group ∨
        valid = true ∧ (kind = .ram ∧ s.NoRamSlot row col ∨ kind = .stash ∧ s.NoStashSlot row col)
  | .pcheck group _ => s.params.npg ≤ group
  | .setShiftcount index _ => s.params.nw < index
  | .cfgWay .. | .setHashRow .. | .hash .. | .swapVersion .. | .setMissDefault .. => False

/-! ## Matches, bit by bit -/

/-- A way entry matches: enabled, of the version, and equal to the key in every bit that must match in an
enabled nibble (42_way.md R134). -/
def RamEntry.Matches (e : RamEntry) (key : Wide) (ver : Version) : Prop :=
  e.ne ≠ 0 ∧ e.ver = ver ∧
    ∀ j, j < 128 → e.mask.getLsbD j = true → e.ne.getLsbD (j / 4) = true → key.getLsbD j = e.data.getLsbD j

/-- A stash entry matches: populated, of the version, and equal to the key in every bit that must match
(43_stash.md R150). -/
def StashEntry.Matches (e : StashEntry) (key : Wide) (av : Version) : Prop :=
  e.ben = true ∧ e.ver = av ∧ ∀ j, j < 128 → e.mm.getLsbD j = true → key.getLsbD j = e.md.getLsbD j

/-- The number of 1 bits of a value. -/
def ones {n : Nat} (v : BitVec n) : Nat := ((List.range n).filter v.getLsbD).length

/-- The slot is in the read set of a lookup (47_lookup.md R211). -/
def State.InReadSet (s : State) (key : Wide) (av : Version) (slot : SlotRef) : Prop :=
  (∃ w, s.configured w = true ∧ slot = .ram w (s.coordOf key w).row (s.coordOf key w).bank) ∨
    (∀ w, s.wayHit key av w = none) ∧
      ∃ w c, s.configured w = true ∧ c < s.params.ns ∧ slot = .stash (s.coordOf key w).row c

/-- A bit of an image word that is backed by storage of a slot that exists (44_parity.md R178,
10_state.md R35, R36). -/
def State.Backed (s : State) (slot : SlotRef) (wsel bit : Nat) : Prop :=
  match slot with
  | .ram w r b =>
      w < s.params.nw ∧ r < s.params.nr ∧ b < s.params.nb ∧
        (wsel ≤ 8 ∧ bit ≤ 31 ∨ wsel = 9 ∧ bit < 24 + s.params.vw)
  | .stash r c =>
      r < s.params.nr ∧ c < s.params.ns ∧
        (wsel ≤ 7 ∧ bit ≤ 31 ∨ wsel = 8 ∧ bit ≤ 24 ∨ wsel = 9 ∧ bit < s.params.vw)

/-! ## Responses -/

/-- The payload a command's response has under each status (30_encoding.md R94, 00_scope.md R14). -/
def PayloadFits (i : Instr) (r : Response) : Prop :=
  match r.status with
  | .configError | .rangeError => r.payload = .empty
  | .parityError => ∃ g bits, i = .pcheck g bits ∧ r.payload = .group g
  | .ok =>
    match i with
    | .hash .. => ∃ v, r.payload = .hash v
    | .map .. => ∃ c, r.payload = .coord c
    | .wayLookup .. => ∃ v, r.payload = .wayHit v
    | .probe .. => ∃ h, r.payload = .stashHit h
    | .lookup .. => ∃ res perr, r.payload = .lookup res perr
    | _ => r.payload = .empty

/-- No command of the run so far was answered with an error (60_exceptions.md R225). -/
def State.errorFree (s : State) : Prop := ∀ r ∈ s.responses, r.status = .ok

end Sys2Proof.Machine
end

