-- ==== Sys2Proof/Certificates/Slice0/Obligations.lean ====
section
/-! DEFINITION. The statements for the provers, each from the numbered rules of the spec. Where a statement
says what a command writes, `t = { s with … }` is its frame: every field that is not named keeps its value. -/

open Sys2Proof Sys2Proof.Machine

/-! ## Encoding -/

/-- Every command survives its frame: no operand bit is dropped (30_encoding.md R72 to R89). -/
def Obligations.DecodeOfEncode : Prop :=
  ∀ i : Instr, i.wellFormed = true → decode (encode i) = .ok i

/-- Every legal frame is the frame of the one command it decodes to (30_encoding.md R72 to R89). -/
def Obligations.EncodeOfDecode : Prop :=
  ∀ (f : Frame) (i : Instr), decode f = .ok i → encode i = f ∧ i.wellFormed = true

/-- 30_encoding.md R90: the decoder accepts exactly the frames that fit a row of the opcode table, and an
illegal frame is refused with `CONFIG_ERROR` before any other check and writes no state. -/
def Obligations.IllegalFramesRefused : Prop :=
  ∀ f : Frame,
    (f.legal = true → ∃ i, decode f = .ok i) ∧
    (f.legal = false → (∃ e, decode f = .error e) ∧
      ∀ s rest, s.pending = .command f :: rest →
        step s = .next { s with pending := rest, position := s.position + 1,
                                responses := s.responses ++ [⟨.configError, .empty⟩] })

/-- Three frames written out from the layouts of 30_encoding.md R75, R78 and R81 decode to the commands they
stand for. -/
def Obligations.WrittenFramesDecode : Prop :=
  decode ⟨0x0000200000000001, [0x0110060204030120]⟩ = .ok (.cfgWay 0 32 32 1 3 4 2 6 16 .v2) ∧
  decode ⟨0x0000000001010004, []⟩ = .ok (.evict 0 1 1) ∧
  decode ⟨0x0000000000080107, [0x01FFFFFF02030007]⟩ =
    .ok (.setParityGroup 1 true .stash 0 3 2 8 0xFFFF 0x01FF true)

/-- A step runs the command its next frame decodes to, and moves the harness on by one frame
(10_state.md R21). -/
def Obligations.StepRunsDecodedCommand : Prop :=
  ∀ (s : State) (f : Frame) (rest : List Input) (i : Instr),
    s.pending = .command f :: rest → decode f = .ok i →
      step s = exec i { s with pending := rest, position := s.position + 1 }

/-- 20_memory.md R58: a frame stored as bytes, byte `n` of word `k` at index `8k + n`, is read back. -/
def Obligations.StoredBytesRoundTrip : Prop :=
  ∀ f : Frame,
    Frame.ofBytes f.toBytes = some f ∧
    f.toBytes.length = 8 * f.words.length ∧
    ∀ k n w, f.words[k]? = some w → n < 8 →
      f.toBytes[8 * k + n]? = some (w.extractLsb' (8 * n) 8)

/-! ## Every command -/

/-- 00_scope.md R14, 60_exceptions.md R225: every command returns exactly one response, with the payload its
row of 30_encoding.md R94 has, and none stops the machine. -/
def Obligations.EveryCommandAnswersOnce : Prop :=
  ∀ (i : Instr) (s : State), ∃ t r,
    exec i s = .next t ∧ t.responses = s.responses ++ [r] ∧ PayloadFits i r ∧
      t.params = s.params ∧ t.pending = s.pending ∧ t.position = s.position

/-- 60_exceptions.md R224: an error writes no state, puts nothing on the event stream, and has no payload.
-/
def Obligations.ErrorsWriteNothing : Prop :=
  ∀ (i : Instr) (s t : State) (r : Response),
    exec i s = .next t → t.responses = s.responses ++ [r] →
      r.status = .configError ∨ r.status = .rangeError → t = s.respond ⟨r.status, .empty⟩

/-- 60_exceptions.md R221: a frame is answered `CONFIG_ERROR` exactly when it is illegal or its command
meets one of the causes of its row. -/
def Obligations.ConfigErrorCauses : Prop :=
  ∀ (s : State) (f : Frame) (rest : List Input), s.pending = .command f :: rest →
    (step s = .next (s.takeCommand.respond ⟨.configError, .empty⟩) ↔
      f.legal = false ∨ ∃ i, decode f = .ok i ∧ s.ConfigCause i)

/-- 60_exceptions.md R222, R226: a frame is answered `RANGE_ERROR` exactly when its command meets one of the
causes of its row and no cause of `CONFIG_ERROR`. -/
def Obligations.RangeErrorCauses : Prop :=
  ∀ (s : State) (f : Frame) (rest : List Input), s.pending = .command f :: rest →
    (step s = .next (s.takeCommand.respond ⟨.rangeError, .empty⟩) ↔
      f.legal = true ∧ ∃ i, decode f = .ok i ∧ ¬ s.ConfigCause i ∧ s.RangeCause i)

/-- 20_memory.md R55: a lookup command writes no state of the engine, only `LOOKUP` may append to the event
stream, and the same command again gives the same response. -/
def Obligations.LookupClassWritesNothing : Prop :=
  ∀ (i : Instr) (s t : State), i.isConfiguration = false → exec i s = .next t →
    t.engine = s.engine ∧ ((∀ kw key, i ≠ .lookup kw key) → t.events = s.events) ∧
      ∃ r u, t.responses = s.responses ++ [r] ∧ exec i t = .next u ∧
        u.responses = t.responses ++ [r] ∧ u.engine = t.engine

/-- 10_state.md R38, the column "written by" for the commands: each piece of state is written by the
commands named and by no other. -/
def Obligations.WritersOfEachState : Prop :=
  ∀ (i : Instr) (s t : State), exec i s = .next t →
    (t.wayCfg ≠ s.wayCfg → i.opcode = 0x01) ∧
    (t.matrix ≠ s.matrix → i.opcode = 0x01 ∨ i.opcode = 0x02) ∧
    (t.ram ≠ s.ram → i.opcode = 0x03 ∨ i.opcode = 0x04) ∧
    (t.stash ≠ s.stash → i.opcode = 0x05) ∧
    (t.activeVersion ≠ s.activeVersion → i.opcode = 0x06) ∧
    (t.parityGroups ≠ s.parityGroups → i.opcode = 0x07) ∧
    (t.missDef ≠ s.missDef → i.opcode = 0x08) ∧
    (t.shiftCount ≠ s.shiftCount → i.opcode = 0x09) ∧
    (t.events ≠ s.events → i.opcode = 0x10)

/-- 20_memory.md R56, which the spec derives from its write rules: a configuration command other than
`CFG_WAY` twice in a row leaves the state it left the first time; the second `CFG_WAY` for one way is
refused and leaves it too. -/
def Obligations.ConfigurationIdempotent : Prop :=
  ∀ (i : Instr) (s t : State), i.isConfiguration = true → exec i s = .next t →
    ∃ u, exec i t = .next u ∧ u.engine = t.engine ∧ (i.opcode = 0x01 → u = t.respond ⟨.configError, .empty⟩)

/-- 10_state.md R34: the streams are write-only. What a command does to the engine, its response and its
events do not depend on the responses and events already there, nor on the model's own schedule and index
(logs 2 and 3). -/
def Obligations.OutputsAreNeverRead : Prop :=
  ∀ (i : Instr) (s t : State) (rs : List Response) (es : List Event) (ins : List Input) (n : Nat),
    exec i s = .next t → ∃ r ev,
      t.responses = s.responses ++ [r] ∧ t.events = s.events ++ ev ∧
      exec i { s with responses := rs, events := es, pending := ins, position := n } =
        .next { t with responses := rs ++ [r], events := es ++ ev, pending := ins, position := n }

/-! ## Steps and invariants -/

/-- A step takes one scheduled step from the schedule, changes no parameter, and advances the harness's
index by exactly 1 for a command and not otherwise (10_state.md R21, 00_scope.md R5). The schedule, the
index as a field and the parameters as a field are the model's choice (logs 1, 2, 3, 8). -/
def Obligations.StepTakesOneInput : Prop :=
  ∀ s t : State, step s = .next t →
    t.params = s.params ∧ t.pending = s.pending.tail ∧
    (∀ f, s.pending.head? = some (.command f) → t.position = s.position + 1) ∧
    ((∀ f, s.pending.head? ≠ some (.command f)) → t.position = s.position)

/-- Every step of every agent keeps the machine's invariant: canonical arrays within their dimensions, legal
way records and matrices (10_state.md R39 (b), (d), the matrix half of (c), which the spec derives),
versions of `VW` bits, legal group records. The canonical form is the model's choice (log 4). -/
def Obligations.StepKeepsInvariant : Prop :=
  ∀ s t : State, s.Inv → step s = .next t → t.Inv

/-- Every step but a soft error keeps 10_state.md R39 (a) and the slot half of (c), which the spec derives.
-/
def Obligations.StepKeepsEntriesConfined : Prop :=
  ∀ s t : State, s.Inv → s.EntriesConfined → ¬ s.corruptsNext → step s = .next t → t.EntriesConfined

/-- Both invariants hold after reset, for every legal choice of parameters. -/
def Obligations.ResetMeetsInvariants : Prop :=
  ∀ p : Params, p.wf → (State.resetFor p).Inv ∧ (State.resetFor p).EntriesConfined

/-- 10_state.md R37: every bit of state is zero after reset and both streams are empty. -/
def Obligations.ResetStateIsZero : Prop :=
  ∀ (p : Params),
    (∀ w, (State.resetFor p).wayCfgAt w = ⟨false, 0, 0, 0, 0, 0, 0, 0, 0, .v1⟩) ∧
    (∀ w i, (State.resetFor p).matrixAt w i = 0) ∧
    (∀ w r b, (State.resetFor p).ramAt w r b = ⟨0, 0, 0, 0, 0, 0⟩) ∧
    (∀ r c, (State.resetFor p).stashAt r c = ⟨0, 0, 0, 0, false, 0⟩) ∧
    (State.resetFor p).activeVersion = 0 ∧
    (∀ g, (State.resetFor p).groupAt g = ⟨false, .ram, 0, 0, 0, 0, 0, false⟩) ∧
    (∀ k (h : k < 5), (State.resetFor p).missDef[k] = ⟨0, 0, 0⟩) ∧
    (∀ i, (State.resetFor p).shiftAt i = 0) ∧
    (State.resetFor p).responses = [] ∧ (State.resetFor p).events = []

/-- 70_reset_and_hazards.md R250: reset, between two commands, puts the engine at its reset state and
empties both streams. That the harness's schedule and index stay is the model's choice (logs 2 and 3). -/
def Obligations.ResetStep : Prop :=
  ∀ (s : State) (rest : List Input), s.pending = .reset :: rest →
    step s = .next { State.resetFor s.params with pending := rest, position := s.position }

/-- 10_state.md R22, 70_reset_and_hazards.md R250: a configured way keeps its record through every step but
reset. -/
def Obligations.WayConfigurationFixedForLife : Prop :=
  ∀ (s t : State) (w : Nat), (s.wayCfgAt w).valid = true → s.pending.head? ≠ some .reset →
    step s = .next t → t.wayCfgAt w = s.wayCfgAt w

/-- 44_parity.md R168: nothing but `SET_PARITY_GROUP` and reset writes a group, its expected parity
included. -/
def Obligations.GroupsWrittenBySoftwareOnly : Prop :=
  ∀ s t : State, s.pending.head? ≠ some .reset →
    (∀ f i, s.pending.head? = some (.command f) → decode f = .ok i → i.opcode ≠ 0x07) →
      step s = .next t → t.parityGroups = s.parityGroups

/-! ## GaloisHasher -/

/-- 40_hash.md R100: hash bit `i` is the XOR of the key bits row `i` selects, and the function reads the
way's record and matrix only. -/
def Obligations.HashBitsAreSelectedXor : Prop :=
  (∀ (s : State) (w : Nat) (key : Wide) (i : Nat), (s.wayCfgAt w).hw ≤ 64 →
    ((s.hashFn w key).getLsbD i = true ↔
      i < (s.wayCfgAt w).hw ∧
        ((List.range (s.wayCfgAt w).kw).filter fun j =>
          (s.matrixAt w i).getLsbD j && key.getLsbD j).length % 2 = 1)) ∧
  ∀ (s t : State) (w : Nat) (key : Wide), s.wayCfgAt w = t.wayCfgAt w →
    (∀ i, s.matrixAt w i = t.matrixAt w i) → s.hashFn w key = t.hashFn w key

/-- 40_hash.md R106, which the spec derives from R100: linearity over GF(2), zero rows, the fresh matrix of
`CFG_WAY`, the identity matrix. -/
def Obligations.HashLaws : Prop :=
  (∀ (s : State) (w : Nat) (a b : Wide), s.hashFn w (a ^^^ b) = s.hashFn w a ^^^ s.hashFn w b) ∧
  (∀ (s : State) (w : Nat), s.hashFn w 0 = 0) ∧
  (∀ (s : State) (w i : Nat) (key : Wide), s.matrixAt w i = 0 → (s.hashFn w key).getLsbD i = false) ∧
  (∀ (s t : State) (w kw hw rl rw bl bw vl vw : Nat) (key : Wide),
    exec (.cfgWay w kw hw rl rw bl bw vl vw .v2) s = .next t →
      t.responses = s.responses ++ [⟨.ok, .empty⟩] → t.hashFn w key = 0) ∧
  (∀ (s : State) (w : Nat) (key : Wide) (i : Nat),
    (s.wayCfgAt w).hw ≤ (s.wayCfgAt w).kw → (s.wayCfgAt w).hw ≤ 64 →
    (∀ j, j < (s.wayCfgAt w).hw → s.matrixAt w j = BitVec.ofNat 128 (2 ^ j)) →
      (s.hashFn w key).getLsbD i = (decide (i < (s.wayCfgAt w).hw) && key.getLsbD i))

/-- `CFG_WAY` (40_hash.md section 2): the record is written, the matrix cleared, nothing else changes. -/
def Obligations.CfgWayCompletes : Prop :=
  ∀ (s : State) (w kw hw rl rw bl bw vl vw : Nat),
    ¬ s.ConfigCause (.cfgWay w kw hw rl rw bl bw vl vw .v2) →
    ∃ t, exec (.cfgWay w kw hw rl rw bl bw vl vw .v2) s = .next t ∧
      t = { s with wayCfg := t.wayCfg, matrix := t.matrix,
                   responses := s.responses ++ [⟨.ok, .empty⟩] } ∧
      (∀ w', t.wayCfgAt w' =
        if w' = w then ⟨true, kw, hw, rl, rw, bl, bw, vl, vw, .v2⟩ else s.wayCfgAt w') ∧
      ∀ w' i, t.matrixAt w' i = if w' = w ∧ i < 64 then 0 else s.matrixAt w' i

/-- 10_state.md R40: `CFG_WAY` with layout `V1` is refused with `CONFIG_ERROR` and writes nothing. -/
def Obligations.LayoutV1Refused : Prop :=
  ∀ (s : State) (w kw hw rl rw bl bw vl vw : Nat),
    exec (.cfgWay w kw hw rl rw bl bw vl vw .v1) s = .next (s.respond ⟨.configError, .empty⟩)

/-- `SET_HASH_ROW` (40_hash.md section 3): one matrix row is written, nothing else changes. -/
def Obligations.SetHashRowCompletes : Prop :=
  ∀ (s : State) (w i kw : Nat) (sel : Wide), ¬ s.ConfigCause (.setHashRow w i kw sel) →
    ∃ t, exec (.setHashRow w i kw sel) s = .next t ∧
      t = { s with matrix := t.matrix, responses := s.responses ++ [⟨.ok, .empty⟩] } ∧
      ∀ w' i', t.matrixAt w' i' = if w' = w ∧ i' = i then sel else s.matrixAt w' i'

/-- `HASH` (40_hash.md section 4): the hash, its bits at and above `HW[w]` zero; no state is written. -/
def Obligations.HashCompletes : Prop :=
  ∀ (s : State) (w kw : Nat) (key : Wide), ¬ s.ConfigCause (.hash w kw key) →
    (s.wayCfgAt w).hw ≤ 64 →
    ∃ v : Word,
      exec (.hash w kw key) s = .next { s with responses := s.responses ++ [⟨.ok, .hash v⟩] } ∧
      v = s.hashFn w key ∧ ∀ i, (s.wayCfgAt w).hw ≤ i → v.getLsbD i = false

/-! ## BankAddressMapper -/

/-- `MAP` (41_bank_map.md R120, section 2): row, bank and VPN are the slices of the hash, bit for bit, row
and bank within the array; no state is written. -/
def Obligations.MapCompletes : Prop :=
  ∀ (s : State) (w : Nat) (h : Word), ¬ s.ConfigCause (.map w h) → ¬ s.RangeCause (.map w h) →
    ∃ c : BankCoord,
      exec (.map w h) s = .next { s with responses := s.responses ++ [⟨.ok, .coord c⟩] } ∧
      c.row < s.params.nr ∧ c.bank < s.params.nb ∧
      (∀ i, c.row.testBit i =
        (decide (i < (s.wayCfgAt w).rowW) && h.getLsbD ((s.wayCfgAt w).rowLo + i))) ∧
      (∀ i, c.bank.testBit i =
        (decide (i < (s.wayCfgAt w).bankW) && h.getLsbD ((s.wayCfgAt w).bankLo + i))) ∧
      ∀ i, i < 16 → c.vpn.getLsbD i =
        (decide (i < (s.wayCfgAt w).vpnW) && h.getLsbD ((s.wayCfgAt w).vpnLo + i))

/-! ## ExactMatchWay -/

/-- 42_way.md R134: when an entry hits, bit by bit, and what the hit is. -/
def Obligations.WayMatchCondition : Prop :=
  ∀ (e : RamEntry) (key : Wide) (ver : Version),
    (e.Matches key ver → wayMatch e key ver = some e.vpn) ∧
    (¬ e.Matches key ver → wayMatch e key ver = none)

/-- `INSERT` (42_way.md section 2): the six fields of the slot are written together, nothing else changes.
-/
def Obligations.InsertCompletes : Prop :=
  ∀ (s : State) (w r b : Nat) (v : Version) (mw : Nat) (mask : Wide) (dw : Nat) (data : Wide)
    (vpn : BitVec 16) (ne : BitVec 32) (ctl : BitVec 8),
    ¬ s.ConfigCause (.insert w r b v mw mask dw data vpn ne ctl) →
    ¬ s.RangeCause (.insert w r b v mw mask dw data vpn ne ctl) →
    ∃ t, exec (.insert w r b v mw mask dw data vpn ne ctl) s = .next t ∧
      t = { s with ram := t.ram, responses := s.responses ++ [⟨.ok, .empty⟩] } ∧
      ∀ w' r' b', t.ramAt w' r' b' =
        if w' = w ∧ r' = r ∧ b' = b then ⟨mask, data, vpn, ne, ctl, v⟩ else s.ramAt w' r' b'

/-- `EVICT` (42_way.md section 3): the `ne` field of the slot is cleared, the five others and everything
else keep their values. -/
def Obligations.EvictCompletes : Prop :=
  ∀ (s : State) (w r b : Nat), ¬ s.ConfigCause (.evict w r b) → ¬ s.RangeCause (.evict w r b) →
    ∃ t, exec (.evict w r b) s = .next t ∧
      t = { s with ram := t.ram, responses := s.responses ++ [⟨.ok, .empty⟩] } ∧
      t.ramAt w r b = { s.ramAt w r b with ne := 0 } ∧
      ∀ w' r' b', ¬(w' = w ∧ r' = r ∧ b' = b) → t.ramAt w' r' b' = s.ramAt w' r' b'

/-- `WAY_LOOKUP` (42_way.md section 4): the verdict on one slot under the frame's version; no state is
written. -/
def Obligations.WayLookupCompletes : Prop :=
  ∀ (s : State) (w r b : Nat) (v : Version) (kw : Nat) (key : Wide),
    ¬ s.ConfigCause (.wayLookup w r b v kw key) → ¬ s.RangeCause (.wayLookup w r b v kw key) →
    ∃ m, exec (.wayLookup w r b v kw key) s =
        .next { s with responses := s.responses ++ [⟨.ok, .wayHit m⟩] } ∧
      ((s.ramAt w r b).Matches key v → m = some (s.ramAt w r b).vpn) ∧
      (¬ (s.ramAt w r b).Matches key v → m = none)

/-- 42_way.md R136 (a), derived by the spec: after an `INSERT` whose enables cover its mask, a lookup of the
slot hits exactly the keys that agree with the data on the mask. -/
def Obligations.InsertThenLookupRoundTrip : Prop :=
  ∀ (s t : State) (w r b : Nat) (v : Version) (kw : Nat) (mask data key : Wide) (vpn : BitVec 16)
    (ne : BitVec 32) (ctl : BitVec 8),
    exec (.insert w r b v kw mask kw data vpn ne ctl) s = .next t →
    t.responses = s.responses ++ [⟨.ok, .empty⟩] →
    ne ≠ 0 → (∀ j, j < 128 → mask.getLsbD j = true → ne.getLsbD (j / 4) = true) → ¬ OverWide key kw →
      exec (.wayLookup w r b v kw key) t =
        .next (t.respond ⟨.ok, .wayHit (if key &&& mask = data &&& mask then some vpn else none)⟩)

/-- 42_way.md R132, R136 (c), derived by the spec: an `INSERT` under another version replaces the slot's
entry; under the old version the slot misses, under the new one it shows the new entry. -/
def Obligations.VersionIsolation : Prop :=
  ∀ (s t u : State) (w r b : Nat) (v₁ v₂ : Version) (kw : Nat) (mask₁ data₁ mask₂ data₂ key : Wide)
    (vpn₁ vpn₂ : BitVec 16) (ne₁ ne₂ : BitVec 32) (ctl₁ ctl₂ : BitVec 8), v₁ ≠ v₂ →
    exec (.insert w r b v₁ kw mask₁ kw data₁ vpn₁ ne₁ ctl₁) s = .next t →
    t.responses = s.responses ++ [⟨.ok, .empty⟩] →
    exec (.insert w r b v₂ kw mask₂ kw data₂ vpn₂ ne₂ ctl₂) t = .next u →
    u.responses = t.responses ++ [⟨.ok, .empty⟩] → ¬ OverWide key kw →
      exec (.wayLookup w r b v₁ kw key) u = .next (u.respond ⟨.ok, .wayHit none⟩) ∧
      exec (.wayLookup w r b v₂ kw key) u =
        .next (u.respond ⟨.ok, .wayHit (wayMatch ⟨mask₂, data₂, vpn₂, ne₂, ctl₂, v₂⟩ key v₂)⟩)

/-- 42_way.md R136 (d), derived by the spec, 10_state.md R25: an evicted slot misses under every key and
version, in `WAY_LOOKUP` and in the way stage of `LOOKUP`. -/
def Obligations.EvictedSlotMisses : Prop :=
  ∀ (s t : State) (w r b : Nat), exec (.evict w r b) s = .next t →
    t.responses = s.responses ++ [⟨.ok, .empty⟩] → ∀ (key : Wide) (v : Version),
      wayMatch (t.ramAt w r b) key v = none ∧
      (∀ h, t.wayHit key v w = some h → ¬(h.row = r ∧ h.bank = b))

/-! ## StashOverflow -/

/-- `STASH_WRITE` (43_stash.md section 2): the six fields of the slot are written together, nothing else
changes. -/
def Obligations.StashWriteCompletes : Prop :=
  ∀ (s : State) (r c : Nat) (v : Version) (mm md : Wide) (idc : BitVec 16) (rbs : BitVec 8) (ben : Bool),
    ¬ s.ConfigCause (.stashWrite r c v mm md idc rbs ben) →
    ¬ s.RangeCause (.stashWrite r c v mm md idc rbs ben) →
    ∃ t, exec (.stashWrite r c v mm md idc rbs ben) s = .next t ∧
      t = { s with stash := t.stash, responses := s.responses ++ [⟨.ok, .empty⟩] } ∧
      ∀ r' c', t.stashAt r' c' = if r' = r ∧ c' = c then ⟨mm, md, idc, rbs, ben, v⟩ else s.stashAt r' c'

/-- 43_stash.md R150, R152: a probe gives the lowest slot of the row whose entry matches, bit by bit, and
none exactly when none matches. -/
def Obligations.ProbeLowestMatchingSlot : Prop :=
  ∀ (s : State) (r : Nat) (key : Wide) (av : Version),
    (∀ c, c < s.params.ns → (s.stashAt r c).Matches key av →
      (∀ c', c' < c → ¬ (s.stashAt r c').Matches key av) →
        s.probeFn r key av = some ⟨r, c, (s.stashAt r c).rbs, (s.stashAt r c).idc⟩) ∧
    (s.probeFn r key av = none ↔ ∀ c, c < s.params.ns → ¬ (s.stashAt r c).Matches key av)

/-- `PROBE` (43_stash.md section 3): the probe of one row under `ACTIVE_VERSION`; no state is written. -/
def Obligations.ProbeCompletes : Prop :=
  ∀ (s : State) (r kw : Nat) (key : Wide),
    ¬ s.ConfigCause (.probe r kw key) → ¬ s.RangeCause (.probe r kw key) →
      exec (.probe r kw key) s =
        .next { s with responses :=
          s.responses ++ [⟨.ok, .stashHit (s.probeFn r key s.activeVersion)⟩] }

/-! ## VersionGate -/

/-- `SWAP_VERSION` (46_version.md R200): `ACTIVE_VERSION` is written, nothing else changes. -/
def Obligations.SwapVersionCompletes : Prop :=
  ∀ (s : State) (v : Version), v.toNat < 2 ^ s.params.vw →
    exec (.swapVersion v) s =
      .next { s with activeVersion := v, responses := s.responses ++ [⟨.ok, .empty⟩] }

/-- 46_version.md R202, derived by the spec: a lookup returns entries of the active version only, enabled or
populated. -/
def Obligations.HitsAreOfTheActiveVersion : Prop :=
  ∀ (s t : State) (kw : Nat) (key : Wide) (res : Resolution) (perr : List Nat),
    exec (.lookup kw key) s = .next t → t.responses = s.responses ++ [⟨.ok, .lookup res perr⟩] →
    (∀ h n, res = .hitWay h n →
      (s.ramAt h.way h.row h.bank).ne ≠ 0 ∧ (s.ramAt h.way h.row h.bank).ver = s.activeVersion ∧
        (s.ramAt h.way h.row h.bank).vpn = h.vpn) ∧
    ∀ h n, res = .hitStash h n →
      (s.stashAt h.row h.slot).ben = true ∧ (s.stashAt h.row h.slot).ver = s.activeVersion

/-- 70_reset_and_hazards.md R254, derived by the spec: loading the new table under an inactive version, into
slots that hold no enabled entry of the active version, changes the status and the Resolution of no lookup.
-/
def Obligations.MakeBeforeBreak : Prop :=
  ∀ (s t : State) (i : Instr), exec i s = .next t →
    ((∃ w r b v mw mask dw data vpn ne ctl,
        i = .insert w r b v mw mask dw data vpn ne ctl ∧ v ≠ s.activeVersion ∧
          ((s.ramAt w r b).ne = 0 ∨ (s.ramAt w r b).ver ≠ s.activeVersion)) ∨
      (∃ r c v mm md idc rbs ben,
        i = .stashWrite r c v mm md idc rbs ben ∧ v ≠ s.activeVersion ∧
          ((s.stashAt r c).ben = false ∨ (s.stashAt r c).ver ≠ s.activeVersion))) →
    ∀ (kw : Nat) (key : Wide) (u : State) (r : Response),
      exec (.lookup kw key) s = .next u → u.responses = s.responses ++ [r] →
      ∃ u' r', exec (.lookup kw key) t = .next u' ∧ u'.responses = t.responses ++ [r'] ∧
        r'.status = r.status ∧
        ∀ res perr, r.payload = .lookup res perr → ∃ perr', r'.payload = .lookup res perr'

/-! ## ParityValidator -/

/-- `SET_PARITY_GROUP` (44_parity.md section 3): a valid group record is written; with `valid = 0` the group
is cleared whatever the other operands are; nothing else changes. -/
def Obligations.SetParityGroupCompletes : Prop :=
  ∀ (s : State) (g : Nat) (valid : Bool) (kind : SlotKind) (way row col wsel : Nat)
    (lo hi : BitVec 16) (expected : Bool),
    ¬ s.ConfigCause (.setParityGroup g valid kind way row col wsel lo hi expected) →
    ¬ s.RangeCause (.setParityGroup g valid kind way row col wsel lo hi expected) →
    ∃ t, exec (.setParityGroup g valid kind way row col wsel lo hi expected) s = .next t ∧
      t = { s with parityGroups := t.parityGroups, responses := s.responses ++ [⟨.ok, .empty⟩] } ∧
      (valid = true → t.groupAt g = ⟨true, kind, way, row, col, wsel, hi ++ lo, expected⟩) ∧
      (valid = false → t.groupAt g = ⟨false, .ram, 0, 0, 0, 0, 0, false⟩) ∧
      ∀ g', g' ≠ g → t.groupAt g' = s.groupAt g'

/-- `PCHECK` (44_parity.md section 4, R165): `OK` when the number of masked 1 bits has the expected parity,
else `PARITY_ERROR` with the group; no state is written and no event is put. -/
def Obligations.PcheckCompletes : Prop :=
  ∀ (s : State) (g : Nat) (bits : BitVec 32), g < s.params.npg → (s.groupAt g).valid = true →
    (ones (bits &&& (s.groupAt g).mask) % 2 = (s.groupAt g).expected.toNat →
      exec (.pcheck g bits) s = .next { s with responses := s.responses ++ [⟨.ok, .empty⟩] }) ∧
    (ones (bits &&& (s.groupAt g).mask) % 2 ≠ (s.groupAt g).expected.toNat →
      exec (.pcheck g bits) s =
        .next { s with responses := s.responses ++ [⟨.parityError, .group g⟩] })

/-- 44_parity.md R166, derived by the spec from R165: a flip under the mask flips the verdict, a flip
elsewhere leaves it, an even number of masked flips leaves it, and an empty mask passes exactly when 0 is
expected. -/
def Obligations.CheckLaws : Prop :=
  ∀ (g : ParityGroup) (bits : BitVec 32),
    (∀ i, i < 32 → g.mask.getLsbD i = true →
      checkOk g (bits ^^^ BitVec.ofNat 32 (2 ^ i)) = !checkOk g bits) ∧
    (∀ i, i < 32 → g.mask.getLsbD i = false →
      checkOk g (bits ^^^ BitVec.ofNat 32 (2 ^ i)) = checkOk g bits) ∧
    (∀ d : BitVec 32, ones (d &&& g.mask) % 2 = 0 → checkOk g (bits ^^^ d) = checkOk g bits) ∧
    (g.mask = 0 → (checkOk g bits = true ↔ g.expected = false))

/-- 44_parity.md R179, 60_exceptions.md R227: what the parity groups are changes neither the status nor the
Resolution of a lookup. -/
def Obligations.ParityNeverChangesResolution : Prop :=
  ∀ (s u : State) (pg : Memory ParityGroup) (kw : Nat) (key : Wide) (r : Response),
    exec (.lookup kw key) s = .next u → u.responses = s.responses ++ [r] →
    ∃ u' r', exec (.lookup kw key) { s with parityGroups := pg } = .next u' ∧
      u'.responses = s.responses ++ [r'] ∧ r'.status = r.status ∧
      ∀ res perr, r.payload = .lookup res perr → ∃ perr', r'.payload = .lookup res perr'

/-- 44_parity.md R176: a scrubber step on a valid group puts `ParityError(g)` on the event stream if the
group fails against the stored bits and does nothing else. That a step the spec does not enable is a fault
is the model's choice (log 5). -/
def Obligations.ScrubberStep : Prop :=
  ∀ (s : State) (g : Nat) (rest : List Input), s.pending = .scrub g :: rest →
    (g < s.params.npg → (s.groupAt g).valid = true →
      (ones (s.imageAt (s.groupAt g).slot (s.groupAt g).wsel &&& (s.groupAt g).mask) % 2 ≠
          (s.groupAt g).expected.toNat →
        step s = .next { s with pending := rest, events := s.events ++ [.parityError g] }) ∧
      (ones (s.imageAt (s.groupAt g).slot (s.groupAt g).wsel &&& (s.groupAt g).mask) % 2 =
          (s.groupAt g).expected.toNat →
        step s = .next { s with pending := rest })) ∧
    (s.params.npg ≤ g ∨ (s.groupAt g).valid = false → step s = .fault .scrubNotEnabled)

/-- 44_parity.md R176: the responses of a command stream do not depend on the scrubber. -/
def Obligations.ScrubberChangesNoResponse : Prop :=
  ∀ (s t u : State) (g : Nat) (i : Instr), scrubStep g s = .next t → exec i s = .next u →
    ∃ v, exec i t = .next v ∧ v.responses = u.responses ∧ v.engine = u.engine

/-- 44_parity.md R178: a soft error flips exactly the named bit of the named image word of the named slot,
seen through the image words of every slot, and changes nothing else. That a step the spec does not enable
is a fault is the model's choice (log 5). -/
def Obligations.CorruptFlipsOneBit : Prop :=
  ∀ (s : State) (slot : SlotRef) (wsel bit : Nat) (rest : List Input), s.params.wf →
    s.pending = .corrupt slot wsel bit :: rest →
    (s.Backed slot wsel bit →
      ∃ t, step s = .next t ∧ t = { s with pending := rest, ram := t.ram, stash := t.stash } ∧
        ∀ slot' wsel' j, wsel' < 10 → j < 32 →
          (t.imageAt slot' wsel').getLsbD j =
            ((s.imageAt slot' wsel').getLsbD j ^^ decide (slot' = slot ∧ wsel' = wsel ∧ j = bit))) ∧
    (¬ s.Backed slot wsel bit → step s = .fault .corruptNotEnabled)

/-! ## NextTableResolver -/

/-- `SET_MISS_DEFAULT` (45_resolver.md section 3): one triple is written, nothing else changes. -/
def Obligations.SetMissDefaultCompletes : Prop :=
  ∀ (s : State) (k : Nat) (miss mask dflt : BitVec 32), k ≤ 4 →
    ∃ t, exec (.setMissDefault k miss mask dflt) s = .next t ∧
      t = { s with missDef := t.missDef, responses := s.responses ++ [⟨.ok, .empty⟩] } ∧
      ∀ k' (h : k' < 5), t.missDef[k'] = if k' = k then ⟨miss, mask, dflt⟩ else s.missDef[k']

/-- `SET_SHIFTCOUNT` (45_resolver.md section 4): one count is written, the stash's entry `NW` included,
nothing else changes. -/
def Obligations.SetShiftcountCompletes : Prop :=
  ∀ (s : State) (i : Nat) (count : BitVec 8), i ≤ s.params.nw →
    ∃ t, exec (.setShiftcount i count) s = .next t ∧
      t = { s with shiftCount := t.shiftCount, responses := s.responses ++ [⟨.ok, .empty⟩] } ∧
      ∀ i', t.shiftAt i' = if i' = i then count else s.shiftAt i'

/-- 45_resolver.md R188: lowest way index with a hit, else the stash hit, else the miss defaults; a way that is
not configured contributes none. -/
def Obligations.ResolvePriority : Prop :=
  (∀ (s : State) (hits : List (Option WayHit)) (stash : Option StashHit),
    (∀ w (h : WayHit), hits[w]? = some (some h) → h.way = w) →
    (∀ w (h : WayHit), hits[w]? = some (some h) → (∀ w', w' < w → hits[w']? = some none) →
      s.resolve hits stash = .hitWay h (s.shiftAt w)) ∧
    ((∀ h ∈ hits, h = none) →
      (∀ h, stash = some h → s.resolve hits stash = .hitStash h (s.shiftAt s.params.nw)) ∧
      (stash = none → s.resolve hits stash = .miss s.missDef))) ∧
  ∀ (s : State) (key : Wide) (av : Version) (w : Nat), s.configured w = false →
    s.wayHit key av w = none

/-! ## The lookup pipeline -/

/-- `LOOKUP` (47_lookup.md R211, R212): it answers the Resolution of the stored bits under the active
version with the ascending list of the valid groups that are bound to a slot of the read set and fail, puts
one event for each of them, and writes nothing else. -/
def Obligations.LookupCompletes : Prop :=
  ∀ (s : State) (kw : Nat) (key : Wide),
    ¬ s.ConfigCause (.lookup kw key) → ¬ s.RangeCause (.lookup kw key) →
    ∃ perr : List Nat,
      exec (.lookup kw key) s =
        .next { s with
          responses := s.responses ++ [⟨.ok, .lookup (s.resolution key s.activeVersion) perr⟩],
          events := s.events ++ perr.map Event.parityError } ∧
      perr.Pairwise (· < ·) ∧
      ∀ g, g ∈ perr ↔
        g < s.params.npg ∧ (s.groupAt g).valid = true ∧
        s.InReadSet key s.activeVersion (s.groupAt g).slot ∧
        ones (s.groupBits g &&& (s.groupAt g).mask) % 2 ≠ (s.groupAt g).expected.toNat

/-- 47_lookup.md R206, R209, 45_resolver.md R190: the Resolution of a lookup is the hit of the lowest
configured way whose entry at the key's coordinate matches; when every configured way misses, the hit of the
first way's row, in ascending order of ways, whose probe hits; otherwise the miss defaults as stored. -/
def Obligations.LookupPicksHighestPriorityHit : Prop :=
  ∀ (s t : State) (kw : Nat) (key : Wide) (res : Resolution) (perr : List Nat),
    exec (.lookup kw key) s = .next t → t.responses = s.responses ++ [⟨.ok, .lookup res perr⟩] →
    let hit := fun w => s.configured w = true ∧
      (s.ramAt w (s.coordOf key w).row (s.coordOf key w).bank).Matches key s.activeVersion
    let probe := fun w => s.probeFn (s.coordOf key w).row key s.activeVersion
    (∀ w, hit w → (∀ w', w' < w → ¬ hit w') →
      res = .hitWay ⟨w, (s.coordOf key w).row, (s.coordOf key w).bank,
        (s.ramAt w (s.coordOf key w).row (s.coordOf key w).bank).vpn⟩ (s.shiftAt w)) ∧
    ((∀ w, ¬ hit w) →
      (∀ w h, s.configured w = true → probe w = some h →
        (∀ w', w' < w → s.configured w' = true → probe w' = none) →
          res = .hitStash h (s.shiftAt s.params.nw)) ∧
      ((∀ w, s.configured w = true → probe w = none) → res = .miss s.missDef))

/-- 47_lookup.md R213 (a), 70_reset_and_hazards.md R251, derived by the spec: with no way configured a legal
lookup is a miss with the stored defaults and an empty failure list, whatever the stash holds. -/
def Obligations.NoConfiguredWayMisses : Prop :=
  ∀ (s : State) (kw : Nat) (key : Wide), (∀ w, s.configured w = false) → 1 ≤ kw → kw ≤ 128 →
    ¬ OverWide key kw →
      exec (.lookup kw key) s =
        .next { s with responses := s.responses ++ [⟨.ok, .lookup (.miss s.missDef) []⟩] }

/-- 47_lookup.md R210: what a way reports depends on the key, on the version and on that way's own record,
matrix and slots only. -/
def Obligations.WaysAreIndependent : Prop :=
  ∀ (s t : State) (w : Nat) (key : Wide) (av : Version), s.params.nw = t.params.nw →
    s.wayCfgAt w = t.wayCfgAt w → (∀ i, s.matrixAt w i = t.matrixAt w i) →
    s.ramAt w (s.coordOf key w).row (s.coordOf key w).bank =
      t.ramAt w (s.coordOf key w).row (s.coordOf key w).bank →
      s.wayHit key av w = t.wayHit key av w ∧ s.coordOf key w = t.coordOf key w

/-- 10_state.md R29: the opaque fields of an entry take no part in its match. -/
def Obligations.OpaqueFieldsNeverMatched : Prop :=
  (∀ (e : RamEntry) (key : Wide) (ver : Version) (vpn : BitVec 16) (ctl : BitVec 8),
    wayMatch { e with vpn := vpn, ctl := ctl } key ver =
      (wayMatch e key ver).map fun _ => vpn) ∧
  ∀ (e : StashEntry) (key : Wide) (av : Version) (idc : BitVec 16) (rbs : BitVec 8),
    StashEntry.hits { e with idc := idc, rbs := rbs } key av = e.hits key av
end

