-- ==== Sys2Proof/Laws/Decode.lean ====
section
/-! SUPPORT. The fields of a header and of a wide operand, both ways; which frames the decoder of each
command accepts. -/

namespace Sys2Proof

theorem field_getLsbD (w : Word) (lo n i : Nat) :
    (field w lo n).getLsbD i = (decide (i < n) && w.getLsbD (lo + i)) := by
  simp [field, BitVec.getLsbD_extractLsb']

/-- A header's fields are the ones it was built from. -/
@[simp] theorem Header.parse_build (h : Header) : Header.parse h.build = h := by
  obtain ⟨op, a, r, c, v, kw, imm⟩ := h
  simp only [Header.parse, Header.build, Header.mk.injEq]
  refine ⟨?_, ?_, ?_, ?_, ?_, ?_, ?_⟩ <;>
  · apply BitVec.eq_of_getLsbD_eq
    intro i hi
    rw [field_getLsbD]
    simp only [BitVec.getLsbD_append, hi, decide_true, Bool.true_and]
    repeat' split
    all_goals first | omega | (congr 1; omega)

/-- A header is the word its fields build. -/
@[simp] theorem Header.build_parse (w : Word) : (Header.parse w).build = w := by
  apply BitVec.eq_of_getLsbD_eq
  intro i hi
  simp only [Header.parse, Header.build, BitVec.getLsbD_append, field_getLsbD]
  repeat' split
  all_goals
    rw [decide_eq_true (by omega), Bool.true_and]
    congr 1
    omega

@[simp] theorem wide_low_high (x : Wide) : wide (wideLow x) (wideHigh x) = x := by
  apply BitVec.eq_of_getLsbD_eq
  intro i hi
  simp only [wide, wideLow, wideHigh, BitVec.getLsbD_append, BitVec.getLsbD_extractLsb']
  split
  · simp [*]
  · rw [decide_eq_true (by omega), Bool.true_and]
    congr 1
    omega

@[simp] theorem wideLow_wide (lo hi : Word) : wideLow (wide lo hi) = lo := by
  apply BitVec.eq_of_getLsbD_eq
  intro i h
  simp only [wide, wideLow, BitVec.getLsbD_extractLsb', BitVec.getLsbD_append, h, decide_true,
    Bool.true_and, Nat.zero_add, if_true]

@[simp] theorem wideHigh_wide (lo hi : Word) : wideHigh (wide lo hi) = hi := by
  apply BitVec.eq_of_getLsbD_eq
  intro i h
  have h1 : ¬ 64 + i < 64 := by omega
  simp only [wide, wideHigh, BitVec.getLsbD_extractLsb', BitVec.getLsbD_append, h, h1, decide_true,
    Bool.true_and, if_false]
  congr 1
  omega

@[simp] theorem HashLayout.ofBit_bit (l : HashLayout) : HashLayout.ofBit l.bit = l := by cases l <;> rfl

@[simp] theorem HashLayout.bit_ofBit (b : Bool) : (HashLayout.ofBit b).bit = b := by cases b <;> rfl

@[simp] theorem SlotKind.ofBit_bit (k : SlotKind) : SlotKind.ofBit k.bit = k := by cases k <;> rfl

@[simp] theorem SlotKind.bit_ofBit (b : Bool) : (SlotKind.ofBit b).bit = b := by cases b <;> rfl

/-- A command is accepted exactly when its reserved bits are zero. -/
@[simp] theorem ifReservedZero_eq_ok {b : Bool} {i j : Instr} :
    ifReservedZero b i = .ok j ↔ b = true ∧ i = j := by
  unfold ifReservedZero
  split <;> simp_all

/-! ## Slices of joined values -/

/-- A slice within the low part of two joined values. -/
theorem extract_append_low {m n : Nat} (x : BitVec n) (y : BitVec m) (lo k : Nat) (hk : lo + k ≤ m) :
    (x ++ y).extractLsb' lo k = y.extractLsb' lo k := by
  apply BitVec.eq_of_getLsbD_eq
  intro i hi
  simp only [BitVec.getLsbD_extractLsb', BitVec.getLsbD_append, hi, decide_true, Bool.true_and]
  rw [if_pos (by omega)]

/-- A slice within the high part of two joined values. -/
theorem extract_append_high {m n : Nat} (x : BitVec n) (y : BitVec m) (lo k : Nat) (hk : m ≤ lo) :
    (x ++ y).extractLsb' lo k = x.extractLsb' (lo - m) k := by
  apply BitVec.eq_of_getLsbD_eq
  intro i hi
  simp only [BitVec.getLsbD_extractLsb', BitVec.getLsbD_append, hi, decide_true, Bool.true_and]
  rw [if_neg (by omega), Nat.sub_add_comm hk]

/-- A slice is the join of its high and low parts. -/
theorem append_extract {n : Nat} (x : BitVec n) (lo k m : Nat) :
    x.extractLsb' (lo + m) k ++ x.extractLsb' lo m = x.extractLsb' lo (k + m) := by
  apply BitVec.eq_of_getLsbD_eq
  intro i hi
  simp only [BitVec.getLsbD_extractLsb', BitVec.getLsbD_append, hi, decide_true, Bool.true_and]
  split
  · simp [*]
  · rw [decide_eq_true (by omega), Bool.true_and]
    congr 1
    omega

/-- A bit as a slice of width 1. -/
theorem getLsbD_extract {n : Nat} (x : BitVec n) (i : Nat) :
    x.getLsbD i = (x.extractLsb' i 1 == 1#1) := by
  rw [Bool.eq_iff_iff, beq_iff_eq]
  constructor
  · intro h
    apply BitVec.eq_of_getLsbD_eq
    intro j hj
    obtain rfl : j = 0 := by omega
    simp [h]
  · intro h
    simpa using congrArg (·.getLsbD 0) h

theorem ofBool_beq_one (b : Bool) : (BitVec.ofBool b == 1#1) = b := by cases b <;> rfl

theorem ofBool_getLsbD {n : Nat} (x : BitVec n) (i : Nat) :
    BitVec.ofBool (x.getLsbD i) = x.extractLsb' i 1 := by
  rw [getLsbD_extract]
  generalize x.extractLsb' i 1 = z
  revert z
  decide

end Sys2Proof
end

