-- ==== Sys2Proof/Laws/Operands.lean ====
section
/-! SUPPORT. What the operators on operands compute, bit by bit. -/

namespace Sys2Proof.Machine

theorem ofBits_lt (f : Nat → Bool) (n : Nat) : ofBits f n < 2 ^ n := by
  induction n with
  | zero => simp [ofBits]
  | succ n ih =>
    have : (f n).toNat ≤ 1 := Bool.toNat_le _
    have : (f n).toNat * 2 ^ n ≤ 1 * 2 ^ n := Nat.mul_le_mul_right _ this
    rw [ofBits, pow_succ]
    omega

/-- Bit `i` of the number built from `f` is `f i`, below the width. -/
theorem testBit_ofBits (f : Nat → Bool) (n i : Nat) :
    (ofBits f n).testBit i = (decide (i < n) && f i) := by
  induction n with
  | zero => simp [ofBits]
  | succ n ih =>
    have hlt := ofBits_lt f n
    rw [ofBits, Nat.add_comm, Nat.mul_comm, Nat.testBit_two_pow_mul_add _ hlt, ih]
    rcases Nat.lt_trichotomy i n with h | h | h
    · simp [h, Nat.lt_succ_of_lt h]
    · subst h
      cases h' : f i <;> simp
    · have h1 : ¬ i < n := by omega
      have h2 : ¬ i < n + 1 := by omega
      have h3 : i - n ≠ 0 := by omega
      have h4 : Nat.testBit 1 (i - n) = false := by
        rw [Bool.eq_false_iff, Ne, Nat.testBit_one_eq_true_iff_self_eq_zero]
        exact h3
      cases f n <;> simp [h1, h2, h4]

theorem getLsbD_ofNat_ofBits (w : Nat) (f : Nat → Bool) (n i : Nat) :
    (BitVec.ofNat w (ofBits f n)).getLsbD i = (decide (i < w) && (decide (i < n) && f i)) := by
  rw [BitVec.getLsbD_ofNat, testBit_ofBits]

theorem xorUpTo_congr {f g : Nat → Bool} {n : Nat} (h : ∀ i, i < n → f i = g i) :
    xorUpTo f n = xorUpTo g n := by
  induction n with
  | zero => rfl
  | succ n ih =>
    rw [xorUpTo, xorUpTo, ih fun i hi => h i (Nat.lt_succ_of_lt hi), h n (Nat.lt_succ_self n)]

/-- The XOR of bitwise XORs is the XOR of the XORs. -/
theorem xorUpTo_xor (f g : Nat → Bool) (n : Nat) :
    xorUpTo (fun i => f i ^^ g i) n = (xorUpTo f n ^^ xorUpTo g n) := by
  induction n with
  | zero => rfl
  | succ n ih =>
    simp only [xorUpTo, ih]
    cases xorUpTo f n <;> cases xorUpTo g n <;> cases f n <;> cases g n <;> rfl

theorem xorUpTo_false (n : Nat) : xorUpTo (fun _ => false) n = false := by
  induction n with
  | zero => rfl
  | succ n ih => simp [xorUpTo, ih]

/-- The XOR of a list of bits with one 1 bit. -/
theorem xorUpTo_single (k n : Nat) (b : Nat → Bool) :
    xorUpTo (fun i => decide (i = k) && b i) n = (decide (k < n) && b k) := by
  induction n with
  | zero => simp [xorUpTo]
  | succ n ih =>
    rw [xorUpTo, ih]
    rcases Nat.lt_trichotomy k n with h | h | h
    · have : n ≠ k := by omega
      simp [h, this, Nat.lt_succ_of_lt h]
    · simp [h]
    · have h1 : ¬ k < n := by omega
      have h2 : ¬ k < n + 1 := by omega
      have h3 : n ≠ k := by omega
      simp [h1, h2, h3]

/-- The XOR of bits is 1 exactly when an odd number of them is 1. -/
theorem xorUpTo_eq_odd (f : Nat → Bool) (n : Nat) :
    xorUpTo f n = decide (((List.range n).filter f).length % 2 = 1) := by
  induction n with
  | zero => rfl
  | succ n ih =>
    rw [xorUpTo, ih, List.range_succ, List.filter_append, List.length_append]
    cases h : f n
    · simp [h]
    · rcases Nat.mod_two_eq_zero_or_one ((List.range n).filter f).length with h' | h' <;>
        simp [h, h', Nat.add_mod]

@[simp] theorem parity_xor {n : Nat} (x y : BitVec n) : parity (x ^^^ y) = (parity x ^^ parity y) := by
  simp only [parity]
  rw [← xorUpTo_xor]
  exact xorUpTo_congr fun i _ => BitVec.getLsbD_xor

/-- Bit `j` of the nibble expansion is the enable of nibble `j div 4`. -/
theorem nexp_getLsbD (ne : BitVec 32) (j : Nat) :
    (nexp ne).getLsbD j = (decide (j < 128) && ne.getLsbD (j / 4)) := by
  rw [nexp, getLsbD_ofNat_ofBits]
  cases decide (j < 128) <;> rfl

/-- A value fits a width exactly when it has no 1 bit at or above it. -/
theorem fitsWidth_iff {n : Nat} (v : BitVec n) (w : Nat) :
    fitsWidth v w = true ↔ ∀ i, w ≤ i → v.getLsbD i = false := by
  simp only [fitsWidth, decide_eq_true_eq]
  constructor
  · intro h i hi
    exact Nat.testBit_lt_two_pow (lt_of_lt_of_le h (Nat.pow_le_pow_right (by decide) hi))
  · intro h
    exact Nat.lt_pow_two_of_testBit _ h

/-- Bit `i` of a slice is bit `lo + i` of the value, below the slice's width. -/
theorem slice_testBit (v : Word) (lo w i : Nat) :
    (slice v lo w).testBit i = (decide (i < w) && v.getLsbD (lo + i)) := by
  rw [slice, Nat.testBit_mod_two_pow, Nat.testBit_div_two_pow, Nat.add_comm]
  rfl

theorem slice_lt (v : Word) (lo w : Nat) : slice v lo w < 2 ^ w := Nat.mod_lt _ (by positivity)

end Sys2Proof.Machine
end

