-- ==== Sys2Proof/Laws/Memory.lean ====
section
/-! SUPPORT. What the operations on an array do, once: reading after a write, and the canonical form. -/

namespace Sys2Proof.Machine

theorem Memory.read_erase {α : Type} (d : α) (m : Memory α) (a b : Nat) :
    Memory.read d (Memory.erase m a) b = if b = a then d else Memory.read d m b := by
  induction m with
  | nil => simp [Memory.erase, Memory.read]
  | cons c m ih =>
    obtain ⟨k, x⟩ := c
    simp only [Memory.erase] at ih
    by_cases hk : k = a
    · subst hk
      by_cases hb : b = k <;> simp_all [Memory.erase, Memory.read]
    · by_cases hb : b = k <;> simp_all [Memory.erase, Memory.read]

theorem Memory.read_place {α : Type} (d : α) (m : Memory α) (a : Nat) (x : α)
    (h : ∀ c ∈ m, c.1 ≠ a) (b : Nat) :
    Memory.read d (Memory.place m a x) b = if b = a then x else Memory.read d m b := by
  induction m with
  | nil => simp [Memory.place, Memory.read]
  | cons c m ih =>
    obtain ⟨k, y⟩ := c
    have hk : k ≠ a := h (k, y) (by simp)
    have ih := ih fun c hc => h c (by simp [hc])
    by_cases hlt : a < k
    · simp [Memory.place, Memory.read, hlt]
    · rw [Memory.place, if_neg hlt, Memory.read, Memory.read, ih]
      by_cases hb : b = k
      · rw [if_pos hb, if_pos hb, if_neg (by omega)]
      · rw [if_neg hb, if_neg hb]

theorem Memory.erase_lacks {α : Type} (m : Memory α) (a : Nat) :
    ∀ c ∈ Memory.erase m a, c.1 ≠ a := by
  intro c hc
  simpa [Memory.erase] using (List.mem_filter.mp hc).2

/-- Reading after a write: the value written there, every other element as before. -/
@[simp] theorem Memory.read_write {α : Type} [DecidableEq α] (d : α) (m : Memory α) (a : Nat) (x : α)
    (b : Nat) : Memory.read d (Memory.write d m a x) b = if b = a then x else Memory.read d m b := by
  unfold Memory.write
  split
  · rename_i h
    rw [Memory.read_erase, h]
  · rw [Memory.read_place _ _ _ _ (Memory.erase_lacks m a), Memory.read_erase]
    split <;> rfl

@[simp] theorem Memory.read_nil {α : Type} (d : α) (a : Nat) : Memory.read d [] a = d := rfl

theorem Memory.mem_place {α : Type} (m : Memory α) (a : Nat) (x : α) (c : Nat × α) :
    c ∈ Memory.place m a x ↔ c = (a, x) ∨ c ∈ m := by
  induction m with
  | nil => simp [Memory.place]
  | cons e m ih =>
    by_cases h : a < e.1
    · simp [Memory.place, h]
    · simp only [Memory.place, h, if_false, List.mem_cons, ih]
      tauto

theorem Memory.wf_erase {α : Type} {d : α} {m : Memory α} (h : Memory.wf d m) (a : Nat) :
    Memory.wf d (Memory.erase m a) :=
  ⟨h.1.filter _, fun c hc => h.2 c (List.mem_of_mem_filter hc)⟩

theorem Memory.wf_place {α : Type} {d : α} {m : Memory α} (h : Memory.wf d m) {a : Nat} {x : α}
    (ha : ∀ c ∈ m, c.1 ≠ a) (hx : x ≠ d) : Memory.wf d (Memory.place m a x) := by
  induction m with
  | nil => simpa [Memory.place, Memory.wf] using hx
  | cons c m ih =>
    obtain ⟨k, y⟩ := c
    have hp := List.pairwise_cons.mp h.1
    have hk : k ≠ a := ha (k, y) (by simp)
    by_cases hlt : a < k
    · refine ⟨?_, ?_⟩
      · simp only [Memory.place, hlt, if_true]
        refine List.pairwise_cons.mpr ⟨?_, h.1⟩
        intro e he
        rcases List.mem_cons.mp he with rfl | he
        · exact hlt
        · exact lt_trans hlt (hp.1 e he)
      · intro e he
        simp only [Memory.place, hlt, if_true, List.mem_cons] at he
        rcases he with rfl | he
        · exact hx
        · exact h.2 e (by simpa using he)
    · have ih := ih ⟨hp.2, fun e he => h.2 e (by simp [he])⟩ fun e he => ha e (by simp [he])
      refine ⟨?_, ?_⟩
      · simp only [Memory.place, hlt, if_false]
        refine List.pairwise_cons.mpr ⟨?_, ih.1⟩
        intro e he
        rcases (Memory.mem_place _ _ _ _).mp he with rfl | he
        · show k < a
          omega
        · exact hp.1 e he
      · intro e he
        simp only [Memory.place, hlt, if_false, List.mem_cons] at he
        rcases he with rfl | he
        · exact h.2 _ (by simp)
        · exact ih.2 e he

/-- A write keeps the canonical form. -/
theorem Memory.wf_write {α : Type} [DecidableEq α] {d : α} {m : Memory α} (h : Memory.wf d m) (a : Nat)
    (x : α) : Memory.wf d (Memory.write d m a x) := by
  unfold Memory.write
  split
  · exact Memory.wf_erase h a
  · exact Memory.wf_place (Memory.wf_erase h a) (Memory.erase_lacks m a) ‹_›

theorem Memory.wf_nil {α : Type} (d : α) : Memory.wf d ([] : Memory α) := by simp [Memory.wf]

theorem Memory.erase_erase {α : Type} (m : Memory α) (a : Nat) :
    Memory.erase (Memory.erase m a) a = Memory.erase m a := by simp [Memory.erase]

theorem Memory.erase_place {α : Type} (m : Memory α) (a : Nat) (x : α) :
    Memory.erase (Memory.place m a x) a = Memory.erase m a := by
  induction m with
  | nil => simp [Memory.place, Memory.erase]
  | cons c m ih =>
    by_cases hlt : a < c.1
    · simp [Memory.place, Memory.erase, hlt]
    · simp only [Memory.erase] at ih
      simp [Memory.place, Memory.erase, hlt, List.filter_cons, ih]

/-- The last write to a key is the one that stands. -/
@[simp] theorem Memory.write_write {α : Type} [DecidableEq α] (d : α) (m : Memory α) (a : Nat)
    (x y : α) : Memory.write d (Memory.write d m a x) a y = Memory.write d m a y := by
  have h : Memory.erase (Memory.write d m a x) a = Memory.erase m a := by
    unfold Memory.write
    split
    · exact Memory.erase_erase m a
    · rw [Memory.erase_place, Memory.erase_erase]
  rw [Memory.write, h, Memory.write]

theorem Memory.read_lacks {α : Type} (d : α) (m : Memory α) (a : Nat) (h : ∀ c ∈ m, c.1 ≠ a) :
    Memory.read d m a = d := by
  induction m with
  | nil => rfl
  | cons c m ih =>
    have hc : a ≠ c.1 := fun e => h c (by simp) e.symm
    rw [Memory.read, if_neg hc]
    exact ih fun c hc => h c (by simp [hc])

theorem Memory.read_mem {α : Type} {d : α} {m : Memory α} (h : Memory.wf d m) {a : Nat} {x : α}
    (hm : (a, x) ∈ m) : Memory.read d m a = x := by
  induction m with
  | nil => simp at hm
  | cons c m ih =>
    have hp := List.pairwise_cons.mp h.1
    rcases List.mem_cons.mp hm with rfl | hm
    · simp [Memory.read]
    · have : c.1 < a := hp.1 _ hm
      rw [Memory.read, if_neg (by omega)]
      exact ih ⟨hp.2, fun e he => h.2 e (by simp [he])⟩ hm

/-- Canonical arrays that read alike are equal. -/
theorem Memory.ext_read {α : Type} {d : α} {m m' : Memory α} (h : Memory.wf d m) (h' : Memory.wf d m')
    (hr : ∀ a, Memory.read d m a = Memory.read d m' a) : m = m' := by
  induction m generalizing m' with
  | nil =>
    cases m' with
    | nil => rfl
    | cons c m' =>
      have := hr c.1
      simp only [Memory.read, if_true] at this
      exact absurd this.symm (h'.2 c (by simp))
  | cons c m ih =>
    have hp := List.pairwise_cons.mp h.1
    cases m' with
    | nil =>
      have := hr c.1
      simp only [Memory.read, if_true] at this
      exact absurd this (h.2 c (by simp))
    | cons c' m' =>
      have hp' := List.pairwise_cons.mp h'.1
      have below : ∀ {n : Memory α} {k : Nat}, (∀ e ∈ n, k < e.1) → ∀ b, b ≤ k →
          Memory.read d n b = d := fun hn b hb =>
        Memory.read_lacks d _ b fun e he => by have := hn e he; omega
      have key : c.1 = c'.1 := by
        rcases Nat.lt_trichotomy c.1 c'.1 with hlt | heq | hgt
        · have := hr c.1
          rw [Memory.read, if_pos rfl, Memory.read, if_neg (by omega),
            below hp'.1 _ (by omega)] at this
          exact absurd this (h.2 c (by simp))
        · exact heq
        · have := hr c'.1
          rw [Memory.read, if_neg (by omega), below hp.1 _ (by omega), Memory.read,
            if_pos rfl] at this
          exact absurd this.symm (h'.2 c' (by simp))
      have val : c.2 = c'.2 := by
        have := hr c.1
        rwa [Memory.read, if_pos rfl, Memory.read, if_pos key] at this
      have rest : m = m' := ih ⟨hp.2, fun e he => h.2 e (by simp [he])⟩
        ⟨hp'.2, fun e he => h'.2 e (by simp [he])⟩ fun a => by
          have := hr a
          by_cases ha : a = c.1
          · rw [below hp.1 a (by omega), below hp'.1 a (by omega)]
          · rwa [Memory.read, if_neg ha, Memory.read, if_neg (by omega)] at this
      rw [rest, Prod.ext key val]

/-! ## Keys -/

@[simp] theorem matrixKey_inj {w i w' i' : Nat} :
    matrixKey w i = matrixKey w' i' ↔ w = w' ∧ i = i' := Nat.pair_eq_pair

@[simp] theorem ramKey_inj {w r b w' r' b' : Nat} :
    ramKey w r b = ramKey w' r' b' ↔ w = w' ∧ r = r' ∧ b = b' := by
  simp [ramKey, Nat.pair_eq_pair]

@[simp] theorem stashKey_inj {r c r' c' : Nat} :
    stashKey r c = stashKey r' c' ↔ r = r' ∧ c = c' := Nat.pair_eq_pair

end Sys2Proof.Machine
end

