-- ==== Sys2Proof/Laws/State.lean ====
section
/-! SUPPORT. The small lemmas of the state: for each update, what every field and every named read gives
after it. -/

namespace Sys2Proof.Machine

/-! ## setWayCfg -/

@[simp] theorem State.setWayCfg_params (s : State) (w : Nat) (c : WayCfg) : (s.setWayCfg w c).params = s.params := rfl
@[simp] theorem State.setWayCfg_matrix (s : State) (w : Nat) (c : WayCfg) : (s.setWayCfg w c).matrix = s.matrix := rfl
@[simp] theorem State.setWayCfg_ram (s : State) (w : Nat) (c : WayCfg) : (s.setWayCfg w c).ram = s.ram := rfl
@[simp] theorem State.setWayCfg_stash (s : State) (w : Nat) (c : WayCfg) : (s.setWayCfg w c).stash = s.stash := rfl
@[simp] theorem State.setWayCfg_activeVersion (s : State) (w : Nat) (c : WayCfg) : (s.setWayCfg w c).activeVersion = s.activeVersion := rfl
@[simp] theorem State.setWayCfg_parityGroups (s : State) (w : Nat) (c : WayCfg) : (s.setWayCfg w c).parityGroups = s.parityGroups := rfl
@[simp] theorem State.setWayCfg_missDef (s : State) (w : Nat) (c : WayCfg) : (s.setWayCfg w c).missDef = s.missDef := rfl
@[simp] theorem State.setWayCfg_shiftCount (s : State) (w : Nat) (c : WayCfg) : (s.setWayCfg w c).shiftCount = s.shiftCount := rfl
@[simp] theorem State.setWayCfg_responses (s : State) (w : Nat) (c : WayCfg) : (s.setWayCfg w c).responses = s.responses := rfl
@[simp] theorem State.setWayCfg_events (s : State) (w : Nat) (c : WayCfg) : (s.setWayCfg w c).events = s.events := rfl
@[simp] theorem State.setWayCfg_pending (s : State) (w : Nat) (c : WayCfg) : (s.setWayCfg w c).pending = s.pending := rfl
@[simp] theorem State.setWayCfg_position (s : State) (w : Nat) (c : WayCfg) : (s.setWayCfg w c).position = s.position := rfl
@[simp] theorem State.setWayCfg_wayCfg (s : State) (w : Nat) (c : WayCfg) :
    (s.setWayCfg w c).wayCfg = Memory.write WayCfg.zero s.wayCfg w c := rfl
@[simp] theorem State.setWayCfg_matrixAt (s : State) (w : Nat) (c : WayCfg) (w' i' : Nat) :
    (s.setWayCfg w c).matrixAt w' i' = s.matrixAt w' i' := rfl
@[simp] theorem State.setWayCfg_ramAt (s : State) (w : Nat) (c : WayCfg) (w' r' b' : Nat) :
    (s.setWayCfg w c).ramAt w' r' b' = s.ramAt w' r' b' := rfl
@[simp] theorem State.setWayCfg_stashAt (s : State) (w : Nat) (c : WayCfg) (r' c' : Nat) :
    (s.setWayCfg w c).stashAt r' c' = s.stashAt r' c' := rfl
@[simp] theorem State.setWayCfg_groupAt (s : State) (w : Nat) (c : WayCfg) (g' : Nat) :
    (s.setWayCfg w c).groupAt g' = s.groupAt g' := rfl
@[simp] theorem State.setWayCfg_shiftAt (s : State) (w : Nat) (c : WayCfg) (i' : Nat) :
    (s.setWayCfg w c).shiftAt i' = s.shiftAt i' := rfl
@[simp] theorem State.setWayCfg_ramInRange (s : State) (w : Nat) (c : WayCfg) (r' b' : Nat) :
    (s.setWayCfg w c).ramInRange r' b' = s.ramInRange r' b' := rfl
@[simp] theorem State.setWayCfg_stashInRange (s : State) (w : Nat) (c : WayCfg) (r' c' : Nat) :
    (s.setWayCfg w c).stashInRange r' c' = s.stashInRange r' c' := rfl
@[simp] theorem State.setWayCfg_wayCfgAt (s : State) (w : Nat) (c : WayCfg) (w' : Nat) :
    (s.setWayCfg w c).wayCfgAt w' = if w' = w then c else s.wayCfgAt w' := by
  simp [State.wayCfgAt, State.setWayCfg]

/-! ## setMatrix -/

@[simp] theorem State.setMatrix_params (s : State) (w i : Nat) (x : Wide) : (s.setMatrix w i x).params = s.params := rfl
@[simp] theorem State.setMatrix_wayCfg (s : State) (w i : Nat) (x : Wide) : (s.setMatrix w i x).wayCfg = s.wayCfg := rfl
@[simp] theorem State.setMatrix_ram (s : State) (w i : Nat) (x : Wide) : (s.setMatrix w i x).ram = s.ram := rfl
@[simp] theorem State.setMatrix_stash (s : State) (w i : Nat) (x : Wide) : (s.setMatrix w i x).stash = s.stash := rfl
@[simp] theorem State.setMatrix_activeVersion (s : State) (w i : Nat) (x : Wide) : (s.setMatrix w i x).activeVersion = s.activeVersion := rfl
@[simp] theorem State.setMatrix_parityGroups (s : State) (w i : Nat) (x : Wide) : (s.setMatrix w i x).parityGroups = s.parityGroups := rfl
@[simp] theorem State.setMatrix_missDef (s : State) (w i : Nat) (x : Wide) : (s.setMatrix w i x).missDef = s.missDef := rfl
@[simp] theorem State.setMatrix_shiftCount (s : State) (w i : Nat) (x : Wide) : (s.setMatrix w i x).shiftCount = s.shiftCount := rfl
@[simp] theorem State.setMatrix_responses (s : State) (w i : Nat) (x : Wide) : (s.setMatrix w i x).responses = s.responses := rfl
@[simp] theorem State.setMatrix_events (s : State) (w i : Nat) (x : Wide) : (s.setMatrix w i x).events = s.events := rfl
@[simp] theorem State.setMatrix_pending (s : State) (w i : Nat) (x : Wide) : (s.setMatrix w i x).pending = s.pending := rfl
@[simp] theorem State.setMatrix_position (s : State) (w i : Nat) (x : Wide) : (s.setMatrix w i x).position = s.position := rfl
@[simp] theorem State.setMatrix_matrix (s : State) (w i : Nat) (x : Wide) :
    (s.setMatrix w i x).matrix = Memory.write 0 s.matrix (matrixKey w i) x := rfl
@[simp] theorem State.setMatrix_wayCfgAt (s : State) (w i : Nat) (x : Wide) (w' : Nat) :
    (s.setMatrix w i x).wayCfgAt w' = s.wayCfgAt w' := rfl
@[simp] theorem State.setMatrix_ramAt (s : State) (w i : Nat) (x : Wide) (w' r' b' : Nat) :
    (s.setMatrix w i x).ramAt w' r' b' = s.ramAt w' r' b' := rfl
@[simp] theorem State.setMatrix_stashAt (s : State) (w i : Nat) (x : Wide) (r' c' : Nat) :
    (s.setMatrix w i x).stashAt r' c' = s.stashAt r' c' := rfl
@[simp] theorem State.setMatrix_groupAt (s : State) (w i : Nat) (x : Wide) (g' : Nat) :
    (s.setMatrix w i x).groupAt g' = s.groupAt g' := rfl
@[simp] theorem State.setMatrix_shiftAt (s : State) (w i : Nat) (x : Wide) (i' : Nat) :
    (s.setMatrix w i x).shiftAt i' = s.shiftAt i' := rfl
@[simp] theorem State.setMatrix_ramInRange (s : State) (w i : Nat) (x : Wide) (r' b' : Nat) :
    (s.setMatrix w i x).ramInRange r' b' = s.ramInRange r' b' := rfl
@[simp] theorem State.setMatrix_stashInRange (s : State) (w i : Nat) (x : Wide) (r' c' : Nat) :
    (s.setMatrix w i x).stashInRange r' c' = s.stashInRange r' c' := rfl
@[simp] theorem State.setMatrix_configured (s : State) (w i : Nat) (x : Wide) (w' : Nat) :
    (s.setMatrix w i x).configured w' = s.configured w' := rfl
@[simp] theorem State.setMatrix_matrixAt (s : State) (w i : Nat) (x : Wide) (w' i' : Nat) :
    (s.setMatrix w i x).matrixAt w' i' = if w' = w ∧ i' = i then x else s.matrixAt w' i' := by
  simp [State.matrixAt, State.setMatrix]

/-! ## setRam -/

@[simp] theorem State.setRam_params (s : State) (w r b : Nat) (e : RamEntry) : (s.setRam w r b e).params = s.params := rfl
@[simp] theorem State.setRam_wayCfg (s : State) (w r b : Nat) (e : RamEntry) : (s.setRam w r b e).wayCfg = s.wayCfg := rfl
@[simp] theorem State.setRam_matrix (s : State) (w r b : Nat) (e : RamEntry) : (s.setRam w r b e).matrix = s.matrix := rfl
@[simp] theorem State.setRam_stash (s : State) (w r b : Nat) (e : RamEntry) : (s.setRam w r b e).stash = s.stash := rfl
@[simp] theorem State.setRam_activeVersion (s : State) (w r b : Nat) (e : RamEntry) : (s.setRam w r b e).activeVersion = s.activeVersion := rfl
@[simp] theorem State.setRam_parityGroups (s : State) (w r b : Nat) (e : RamEntry) : (s.setRam w r b e).parityGroups = s.parityGroups := rfl
@[simp] theorem State.setRam_missDef (s : State) (w r b : Nat) (e : RamEntry) : (s.setRam w r b e).missDef = s.missDef := rfl
@[simp] theorem State.setRam_shiftCount (s : State) (w r b : Nat) (e : RamEntry) : (s.setRam w r b e).shiftCount = s.shiftCount := rfl
@[simp] theorem State.setRam_responses (s : State) (w r b : Nat) (e : RamEntry) : (s.setRam w r b e).responses = s.responses := rfl
@[simp] theorem State.setRam_events (s : State) (w r b : Nat) (e : RamEntry) : (s.setRam w r b e).events = s.events := rfl
@[simp] theorem State.setRam_pending (s : State) (w r b : Nat) (e : RamEntry) : (s.setRam w r b e).pending = s.pending := rfl
@[simp] theorem State.setRam_position (s : State) (w r b : Nat) (e : RamEntry) : (s.setRam w r b e).position = s.position := rfl
@[simp] theorem State.setRam_ram (s : State) (w r b : Nat) (e : RamEntry) :
    (s.setRam w r b e).ram = Memory.write RamEntry.zero s.ram (ramKey w r b) e := rfl
@[simp] theorem State.setRam_wayCfgAt (s : State) (w r b : Nat) (e : RamEntry) (w' : Nat) :
    (s.setRam w r b e).wayCfgAt w' = s.wayCfgAt w' := rfl
@[simp] theorem State.setRam_matrixAt (s : State) (w r b : Nat) (e : RamEntry) (w' i' : Nat) :
    (s.setRam w r b e).matrixAt w' i' = s.matrixAt w' i' := rfl
@[simp] theorem State.setRam_stashAt (s : State) (w r b : Nat) (e : RamEntry) (r' c' : Nat) :
    (s.setRam w r b e).stashAt r' c' = s.stashAt r' c' := rfl
@[simp] theorem State.setRam_groupAt (s : State) (w r b : Nat) (e : RamEntry) (g' : Nat) :
    (s.setRam w r b e).groupAt g' = s.groupAt g' := rfl
@[simp] theorem State.setRam_shiftAt (s : State) (w r b : Nat) (e : RamEntry) (i' : Nat) :
    (s.setRam w r b e).shiftAt i' = s.shiftAt i' := rfl
@[simp] theorem State.setRam_ramInRange (s : State) (w r b : Nat) (e : RamEntry) (r' b' : Nat) :
    (s.setRam w r b e).ramInRange r' b' = s.ramInRange r' b' := rfl
@[simp] theorem State.setRam_stashInRange (s : State) (w r b : Nat) (e : RamEntry) (r' c' : Nat) :
    (s.setRam w r b e).stashInRange r' c' = s.stashInRange r' c' := rfl
@[simp] theorem State.setRam_configured (s : State) (w r b : Nat) (e : RamEntry) (w' : Nat) :
    (s.setRam w r b e).configured w' = s.configured w' := rfl
@[simp] theorem State.setRam_ramAt (s : State) (w r b : Nat) (e : RamEntry) (w' r' b' : Nat) :
    (s.setRam w r b e).ramAt w' r' b' = if w' = w ∧ r' = r ∧ b' = b then e else s.ramAt w' r' b' := by
  simp [State.ramAt, State.setRam]

/-! ## setStash -/

@[simp] theorem State.setStash_params (s : State) (r c : Nat) (e : StashEntry) : (s.setStash r c e).params = s.params := rfl
@[simp] theorem State.setStash_wayCfg (s : State) (r c : Nat) (e : StashEntry) : (s.setStash r c e).wayCfg = s.wayCfg := rfl
@[simp] theorem State.setStash_matrix (s : State) (r c : Nat) (e : StashEntry) : (s.setStash r c e).matrix = s.matrix := rfl
@[simp] theorem State.setStash_ram (s : State) (r c : Nat) (e : StashEntry) : (s.setStash r c e).ram = s.ram := rfl
@[simp] theorem State.setStash_activeVersion (s : State) (r c : Nat) (e : StashEntry) : (s.setStash r c e).activeVersion = s.activeVersion := rfl
@[simp] theorem State.setStash_parityGroups (s : State) (r c : Nat) (e : StashEntry) : (s.setStash r c e).parityGroups = s.parityGroups := rfl
@[simp] theorem State.setStash_missDef (s : State) (r c : Nat) (e : StashEntry) : (s.setStash r c e).missDef = s.missDef := rfl
@[simp] theorem State.setStash_shiftCount (s : State) (r c : Nat) (e : StashEntry) : (s.setStash r c e).shiftCount = s.shiftCount := rfl
@[simp] theorem State.setStash_responses (s : State) (r c : Nat) (e : StashEntry) : (s.setStash r c e).responses = s.responses := rfl
@[simp] theorem State.setStash_events (s : State) (r c : Nat) (e : StashEntry) : (s.setStash r c e).events = s.events := rfl
@[simp] theorem State.setStash_pending (s : State) (r c : Nat) (e : StashEntry) : (s.setStash r c e).pending = s.pending := rfl
@[simp] theorem State.setStash_position (s : State) (r c : Nat) (e : StashEntry) : (s.setStash r c e).position = s.position := rfl
@[simp] theorem State.setStash_stash (s : State) (r c : Nat) (e : StashEntry) :
    (s.setStash r c e).stash = Memory.write StashEntry.zero s.stash (stashKey r c) e := rfl
@[simp] theorem State.setStash_wayCfgAt (s : State) (r c : Nat) (e : StashEntry) (w' : Nat) :
    (s.setStash r c e).wayCfgAt w' = s.wayCfgAt w' := rfl
@[simp] theorem State.setStash_matrixAt (s : State) (r c : Nat) (e : StashEntry) (w' i' : Nat) :
    (s.setStash r c e).matrixAt w' i' = s.matrixAt w' i' := rfl
@[simp] theorem State.setStash_ramAt (s : State) (r c : Nat) (e : StashEntry) (w' r' b' : Nat) :
    (s.setStash r c e).ramAt w' r' b' = s.ramAt w' r' b' := rfl
@[simp] theorem State.setStash_groupAt (s : State) (r c : Nat) (e : StashEntry) (g' : Nat) :
    (s.setStash r c e).groupAt g' = s.groupAt g' := rfl
@[simp] theorem State.setStash_shiftAt (s : State) (r c : Nat) (e : StashEntry) (i' : Nat) :
    (s.setStash r c e).shiftAt i' = s.shiftAt i' := rfl
@[simp] theorem State.setStash_ramInRange (s : State) (r c : Nat) (e : StashEntry) (r' b' : Nat) :
    (s.setStash r c e).ramInRange r' b' = s.ramInRange r' b' := rfl
@[simp] theorem State.setStash_stashInRange (s : State) (r c : Nat) (e : StashEntry) (r' c' : Nat) :
    (s.setStash r c e).stashInRange r' c' = s.stashInRange r' c' := rfl
@[simp] theorem State.setStash_configured (s : State) (r c : Nat) (e : StashEntry) (w' : Nat) :
    (s.setStash r c e).configured w' = s.configured w' := rfl
@[simp] theorem State.setStash_stashAt (s : State) (r c : Nat) (e : StashEntry) (r' c' : Nat) :
    (s.setStash r c e).stashAt r' c' = if r' = r ∧ c' = c then e else s.stashAt r' c' := by
  simp [State.stashAt, State.setStash]

/-! ## setActiveVersion -/

@[simp] theorem State.setActiveVersion_params (s : State) (v : Version) : (s.setActiveVersion v).params = s.params := rfl
@[simp] theorem State.setActiveVersion_wayCfg (s : State) (v : Version) : (s.setActiveVersion v).wayCfg = s.wayCfg := rfl
@[simp] theorem State.setActiveVersion_matrix (s : State) (v : Version) : (s.setActiveVersion v).matrix = s.matrix := rfl
@[simp] theorem State.setActiveVersion_ram (s : State) (v : Version) : (s.setActiveVersion v).ram = s.ram := rfl
@[simp] theorem State.setActiveVersion_stash (s : State) (v : Version) : (s.setActiveVersion v).stash = s.stash := rfl
@[simp] theorem State.setActiveVersion_parityGroups (s : State) (v : Version) : (s.setActiveVersion v).parityGroups = s.parityGroups := rfl
@[simp] theorem State.setActiveVersion_missDef (s : State) (v : Version) : (s.setActiveVersion v).missDef = s.missDef := rfl
@[simp] theorem State.setActiveVersion_shiftCount (s : State) (v : Version) : (s.setActiveVersion v).shiftCount = s.shiftCount := rfl
@[simp] theorem State.setActiveVersion_responses (s : State) (v : Version) : (s.setActiveVersion v).responses = s.responses := rfl
@[simp] theorem State.setActiveVersion_events (s : State) (v : Version) : (s.setActiveVersion v).events = s.events := rfl
@[simp] theorem State.setActiveVersion_pending (s : State) (v : Version) : (s.setActiveVersion v).pending = s.pending := rfl
@[simp] theorem State.setActiveVersion_position (s : State) (v : Version) : (s.setActiveVersion v).position = s.position := rfl
@[simp] theorem State.setActiveVersion_activeVersion (s : State) (v : Version) : (s.setActiveVersion v).activeVersion = v := rfl
@[simp] theorem State.setActiveVersion_wayCfgAt (s : State) (v : Version) (w' : Nat) :
    (s.setActiveVersion v).wayCfgAt w' = s.wayCfgAt w' := rfl
@[simp] theorem State.setActiveVersion_matrixAt (s : State) (v : Version) (w' i' : Nat) :
    (s.setActiveVersion v).matrixAt w' i' = s.matrixAt w' i' := rfl
@[simp] theorem State.setActiveVersion_ramAt (s : State) (v : Version) (w' r' b' : Nat) :
    (s.setActiveVersion v).ramAt w' r' b' = s.ramAt w' r' b' := rfl
@[simp] theorem State.setActiveVersion_stashAt (s : State) (v : Version) (r' c' : Nat) :
    (s.setActiveVersion v).stashAt r' c' = s.stashAt r' c' := rfl
@[simp] theorem State.setActiveVersion_groupAt (s : State) (v : Version) (g' : Nat) :
    (s.setActiveVersion v).groupAt g' = s.groupAt g' := rfl
@[simp] theorem State.setActiveVersion_shiftAt (s : State) (v : Version) (i' : Nat) :
    (s.setActiveVersion v).shiftAt i' = s.shiftAt i' := rfl
@[simp] theorem State.setActiveVersion_ramInRange (s : State) (v : Version) (r' b' : Nat) :
    (s.setActiveVersion v).ramInRange r' b' = s.ramInRange r' b' := rfl
@[simp] theorem State.setActiveVersion_stashInRange (s : State) (v : Version) (r' c' : Nat) :
    (s.setActiveVersion v).stashInRange r' c' = s.stashInRange r' c' := rfl
@[simp] theorem State.setActiveVersion_configured (s : State) (v : Version) (w' : Nat) :
    (s.setActiveVersion v).configured w' = s.configured w' := rfl

/-! ## setGroup -/

@[simp] theorem State.setGroup_params (s : State) (g : Nat) (x : ParityGroup) : (s.setGroup g x).params = s.params := rfl
@[simp] theorem State.setGroup_wayCfg (s : State) (g : Nat) (x : ParityGroup) : (s.setGroup g x).wayCfg = s.wayCfg := rfl
@[simp] theorem State.setGroup_matrix (s : State) (g : Nat) (x : ParityGroup) : (s.setGroup g x).matrix = s.matrix := rfl
@[simp] theorem State.setGroup_ram (s : State) (g : Nat) (x : ParityGroup) : (s.setGroup g x).ram = s.ram := rfl
@[simp] theorem State.setGroup_stash (s : State) (g : Nat) (x : ParityGroup) : (s.setGroup g x).stash = s.stash := rfl
@[simp] theorem State.setGroup_activeVersion (s : State) (g : Nat) (x : ParityGroup) : (s.setGroup g x).activeVersion = s.activeVersion := rfl
@[simp] theorem State.setGroup_missDef (s : State) (g : Nat) (x : ParityGroup) : (s.setGroup g x).missDef = s.missDef := rfl
@[simp] theorem State.setGroup_shiftCount (s : State) (g : Nat) (x : ParityGroup) : (s.setGroup g x).shiftCount = s.shiftCount := rfl
@[simp] theorem State.setGroup_responses (s : State) (g : Nat) (x : ParityGroup) : (s.setGroup g x).responses = s.responses := rfl
@[simp] theorem State.setGroup_events (s : State) (g : Nat) (x : ParityGroup) : (s.setGroup g x).events = s.events := rfl
@[simp] theorem State.setGroup_pending (s : State) (g : Nat) (x : ParityGroup) : (s.setGroup g x).pending = s.pending := rfl
@[simp] theorem State.setGroup_position (s : State) (g : Nat) (x : ParityGroup) : (s.setGroup g x).position = s.position := rfl
@[simp] theorem State.setGroup_parityGroups (s : State) (g : Nat) (x : ParityGroup) :
    (s.setGroup g x).parityGroups = Memory.write ParityGroup.zero s.parityGroups g x := rfl
@[simp] theorem State.setGroup_wayCfgAt (s : State) (g : Nat) (x : ParityGroup) (w' : Nat) :
    (s.setGroup g x).wayCfgAt w' = s.wayCfgAt w' := rfl
@[simp] theorem State.setGroup_matrixAt (s : State) (g : Nat) (x : ParityGroup) (w' i' : Nat) :
    (s.setGroup g x).matrixAt w' i' = s.matrixAt w' i' := rfl
@[simp] theorem State.setGroup_ramAt (s : State) (g : Nat) (x : ParityGroup) (w' r' b' : Nat) :
    (s.setGroup g x).ramAt w' r' b' = s.ramAt w' r' b' := rfl
@[simp] theorem State.setGroup_stashAt (s : State) (g : Nat) (x : ParityGroup) (r' c' : Nat) :
    (s.setGroup g x).stashAt r' c' = s.stashAt r' c' := rfl
@[simp] theorem State.setGroup_shiftAt (s : State) (g : Nat) (x : ParityGroup) (i' : Nat) :
    (s.setGroup g x).shiftAt i' = s.shiftAt i' := rfl
@[simp] theorem State.setGroup_ramInRange (s : State) (g : Nat) (x : ParityGroup) (r' b' : Nat) :
    (s.setGroup g x).ramInRange r' b' = s.ramInRange r' b' := rfl
@[simp] theorem State.setGroup_stashInRange (s : State) (g : Nat) (x : ParityGroup) (r' c' : Nat) :
    (s.setGroup g x).stashInRange r' c' = s.stashInRange r' c' := rfl
@[simp] theorem State.setGroup_configured (s : State) (g : Nat) (x : ParityGroup) (w' : Nat) :
    (s.setGroup g x).configured w' = s.configured w' := rfl
@[simp] theorem State.setGroup_groupAt (s : State) (g : Nat) (x : ParityGroup) (g' : Nat) :
    (s.setGroup g x).groupAt g' = if g' = g then x else s.groupAt g' := by
  simp [State.groupAt, State.setGroup]

/-! ## setMissDef -/

@[simp] theorem State.setMissDef_params (s : State) (k : Nat) (x : MissDefault) : (s.setMissDef k x).params = s.params := rfl
@[simp] theorem State.setMissDef_wayCfg (s : State) (k : Nat) (x : MissDefault) : (s.setMissDef k x).wayCfg = s.wayCfg := rfl
@[simp] theorem State.setMissDef_matrix (s : State) (k : Nat) (x : MissDefault) : (s.setMissDef k x).matrix = s.matrix := rfl
@[simp] theorem State.setMissDef_ram (s : State) (k : Nat) (x : MissDefault) : (s.setMissDef k x).ram = s.ram := rfl
@[simp] theorem State.setMissDef_stash (s : State) (k : Nat) (x : MissDefault) : (s.setMissDef k x).stash = s.stash := rfl
@[simp] theorem State.setMissDef_activeVersion (s : State) (k : Nat) (x : MissDefault) : (s.setMissDef k x).activeVersion = s.activeVersion := rfl
@[simp] theorem State.setMissDef_parityGroups (s : State) (k : Nat) (x : MissDefault) : (s.setMissDef k x).parityGroups = s.parityGroups := rfl
@[simp] theorem State.setMissDef_shiftCount (s : State) (k : Nat) (x : MissDefault) : (s.setMissDef k x).shiftCount = s.shiftCount := rfl
@[simp] theorem State.setMissDef_responses (s : State) (k : Nat) (x : MissDefault) : (s.setMissDef k x).responses = s.responses := rfl
@[simp] theorem State.setMissDef_events (s : State) (k : Nat) (x : MissDefault) : (s.setMissDef k x).events = s.events := rfl
@[simp] theorem State.setMissDef_pending (s : State) (k : Nat) (x : MissDefault) : (s.setMissDef k x).pending = s.pending := rfl
@[simp] theorem State.setMissDef_position (s : State) (k : Nat) (x : MissDefault) : (s.setMissDef k x).position = s.position := rfl
@[simp] theorem State.setMissDef_missDef (s : State) (k : Nat) (x : MissDefault) :
    (s.setMissDef k x).missDef = s.missDef.setIfInBounds k x := rfl
@[simp] theorem State.setMissDef_wayCfgAt (s : State) (k : Nat) (x : MissDefault) (w' : Nat) :
    (s.setMissDef k x).wayCfgAt w' = s.wayCfgAt w' := rfl
@[simp] theorem State.setMissDef_matrixAt (s : State) (k : Nat) (x : MissDefault) (w' i' : Nat) :
    (s.setMissDef k x).matrixAt w' i' = s.matrixAt w' i' := rfl
@[simp] theorem State.setMissDef_ramAt (s : State) (k : Nat) (x : MissDefault) (w' r' b' : Nat) :
    (s.setMissDef k x).ramAt w' r' b' = s.ramAt w' r' b' := rfl
@[simp] theorem State.setMissDef_stashAt (s : State) (k : Nat) (x : MissDefault) (r' c' : Nat) :
    (s.setMissDef k x).stashAt r' c' = s.stashAt r' c' := rfl
@[simp] theorem State.setMissDef_groupAt (s : State) (k : Nat) (x : MissDefault) (g' : Nat) :
    (s.setMissDef k x).groupAt g' = s.groupAt g' := rfl
@[simp] theorem State.setMissDef_shiftAt (s : State) (k : Nat) (x : MissDefault) (i' : Nat) :
    (s.setMissDef k x).shiftAt i' = s.shiftAt i' := rfl
@[simp] theorem State.setMissDef_ramInRange (s : State) (k : Nat) (x : MissDefault) (r' b' : Nat) :
    (s.setMissDef k x).ramInRange r' b' = s.ramInRange r' b' := rfl
@[simp] theorem State.setMissDef_stashInRange (s : State) (k : Nat) (x : MissDefault) (r' c' : Nat) :
    (s.setMissDef k x).stashInRange r' c' = s.stashInRange r' c' := rfl
@[simp] theorem State.setMissDef_configured (s : State) (k : Nat) (x : MissDefault) (w' : Nat) :
    (s.setMissDef k x).configured w' = s.configured w' := rfl

/-! ## setShift -/

@[simp] theorem State.setShift_params (s : State) (i : Nat) (x : BitVec 8) : (s.setShift i x).params = s.params := rfl
@[simp] theorem State.setShift_wayCfg (s : State) (i : Nat) (x : BitVec 8) : (s.setShift i x).wayCfg = s.wayCfg := rfl
@[simp] theorem State.setShift_matrix (s : State) (i : Nat) (x : BitVec 8) : (s.setShift i x).matrix = s.matrix := rfl
@[simp] theorem State.setShift_ram (s : State) (i : Nat) (x : BitVec 8) : (s.setShift i x).ram = s.ram := rfl
@[simp] theorem State.setShift_stash (s : State) (i : Nat) (x : BitVec 8) : (s.setShift i x).stash = s.stash := rfl
@[simp] theorem State.setShift_activeVersion (s : State) (i : Nat) (x : BitVec 8) : (s.setShift i x).activeVersion = s.activeVersion := rfl
@[simp] theorem State.setShift_parityGroups (s : State) (i : Nat) (x : BitVec 8) : (s.setShift i x).parityGroups = s.parityGroups := rfl
@[simp] theorem State.setShift_missDef (s : State) (i : Nat) (x : BitVec 8) : (s.setShift i x).missDef = s.missDef := rfl
@[simp] theorem State.setShift_responses (s : State) (i : Nat) (x : BitVec 8) : (s.setShift i x).responses = s.responses := rfl
@[simp] theorem State.setShift_events (s : State) (i : Nat) (x : BitVec 8) : (s.setShift i x).events = s.events := rfl
@[simp] theorem State.setShift_pending (s : State) (i : Nat) (x : BitVec 8) : (s.setShift i x).pending = s.pending := rfl
@[simp] theorem State.setShift_position (s : State) (i : Nat) (x : BitVec 8) : (s.setShift i x).position = s.position := rfl
@[simp] theorem State.setShift_shiftCount (s : State) (i : Nat) (x : BitVec 8) :
    (s.setShift i x).shiftCount = Memory.write 0 s.shiftCount i x := rfl
@[simp] theorem State.setShift_wayCfgAt (s : State) (i : Nat) (x : BitVec 8) (w' : Nat) :
    (s.setShift i x).wayCfgAt w' = s.wayCfgAt w' := rfl
@[simp] theorem State.setShift_matrixAt (s : State) (i : Nat) (x : BitVec 8) (w' i' : Nat) :
    (s.setShift i x).matrixAt w' i' = s.matrixAt w' i' := rfl
@[simp] theorem State.setShift_ramAt (s : State) (i : Nat) (x : BitVec 8) (w' r' b' : Nat) :
    (s.setShift i x).ramAt w' r' b' = s.ramAt w' r' b' := rfl
@[simp] theorem State.setShift_stashAt (s : State) (i : Nat) (x : BitVec 8) (r' c' : Nat) :
    (s.setShift i x).stashAt r' c' = s.stashAt r' c' := rfl
@[simp] theorem State.setShift_groupAt (s : State) (i : Nat) (x : BitVec 8) (g' : Nat) :
    (s.setShift i x).groupAt g' = s.groupAt g' := rfl
@[simp] theorem State.setShift_ramInRange (s : State) (i : Nat) (x : BitVec 8) (r' b' : Nat) :
    (s.setShift i x).ramInRange r' b' = s.ramInRange r' b' := rfl
@[simp] theorem State.setShift_stashInRange (s : State) (i : Nat) (x : BitVec 8) (r' c' : Nat) :
    (s.setShift i x).stashInRange r' c' = s.stashInRange r' c' := rfl
@[simp] theorem State.setShift_configured (s : State) (i : Nat) (x : BitVec 8) (w' : Nat) :
    (s.setShift i x).configured w' = s.configured w' := rfl
@[simp] theorem State.setShift_shiftAt (s : State) (i : Nat) (x : BitVec 8) (i' : Nat) :
    (s.setShift i x).shiftAt i' = if i' = i then x else s.shiftAt i' := by
  simp [State.shiftAt, State.setShift]

/-! ## respond -/

@[simp] theorem State.respond_params (s : State) (r : Response) : (s.respond r).params = s.params := rfl
@[simp] theorem State.respond_wayCfg (s : State) (r : Response) : (s.respond r).wayCfg = s.wayCfg := rfl
@[simp] theorem State.respond_matrix (s : State) (r : Response) : (s.respond r).matrix = s.matrix := rfl
@[simp] theorem State.respond_ram (s : State) (r : Response) : (s.respond r).ram = s.ram := rfl
@[simp] theorem State.respond_stash (s : State) (r : Response) : (s.respond r).stash = s.stash := rfl
@[simp] theorem State.respond_activeVersion (s : State) (r : Response) : (s.respond r).activeVersion = s.activeVersion := rfl
@[simp] theorem State.respond_parityGroups (s : State) (r : Response) : (s.respond r).parityGroups = s.parityGroups := rfl
@[simp] theorem State.respond_missDef (s : State) (r : Response) : (s.respond r).missDef = s.missDef := rfl
@[simp] theorem State.respond_shiftCount (s : State) (r : Response) : (s.respond r).shiftCount = s.shiftCount := rfl
@[simp] theorem State.respond_events (s : State) (r : Response) : (s.respond r).events = s.events := rfl
@[simp] theorem State.respond_pending (s : State) (r : Response) : (s.respond r).pending = s.pending := rfl
@[simp] theorem State.respond_position (s : State) (r : Response) : (s.respond r).position = s.position := rfl
@[simp] theorem State.respond_responses (s : State) (r : Response) :
    (s.respond r).responses = s.responses ++ [r] := rfl
@[simp] theorem State.respond_wayCfgAt (s : State) (r : Response) (w' : Nat) :
    (s.respond r).wayCfgAt w' = s.wayCfgAt w' := rfl
@[simp] theorem State.respond_matrixAt (s : State) (r : Response) (w' i' : Nat) :
    (s.respond r).matrixAt w' i' = s.matrixAt w' i' := rfl
@[simp] theorem State.respond_ramAt (s : State) (r : Response) (w' r' b' : Nat) :
    (s.respond r).ramAt w' r' b' = s.ramAt w' r' b' := rfl
@[simp] theorem State.respond_stashAt (s : State) (r : Response) (r' c' : Nat) :
    (s.respond r).stashAt r' c' = s.stashAt r' c' := rfl
@[simp] theorem State.respond_groupAt (s : State) (r : Response) (g' : Nat) :
    (s.respond r).groupAt g' = s.groupAt g' := rfl
@[simp] theorem State.respond_shiftAt (s : State) (r : Response) (i' : Nat) :
    (s.respond r).shiftAt i' = s.shiftAt i' := rfl
@[simp] theorem State.respond_ramInRange (s : State) (r : Response) (r' b' : Nat) :
    (s.respond r).ramInRange r' b' = s.ramInRange r' b' := rfl
@[simp] theorem State.respond_stashInRange (s : State) (r : Response) (r' c' : Nat) :
    (s.respond r).stashInRange r' c' = s.stashInRange r' c' := rfl
@[simp] theorem State.respond_configured (s : State) (r : Response) (w' : Nat) :
    (s.respond r).configured w' = s.configured w' := rfl

/-! ## report -/

@[simp] theorem State.report_params (s : State) (l : List Nat) : (s.report l).params = s.params := rfl
@[simp] theorem State.report_wayCfg (s : State) (l : List Nat) : (s.report l).wayCfg = s.wayCfg := rfl
@[simp] theorem State.report_matrix (s : State) (l : List Nat) : (s.report l).matrix = s.matrix := rfl
@[simp] theorem State.report_ram (s : State) (l : List Nat) : (s.report l).ram = s.ram := rfl
@[simp] theorem State.report_stash (s : State) (l : List Nat) : (s.report l).stash = s.stash := rfl
@[simp] theorem State.report_activeVersion (s : State) (l : List Nat) : (s.report l).activeVersion = s.activeVersion := rfl
@[simp] theorem State.report_parityGroups (s : State) (l : List Nat) : (s.report l).parityGroups = s.parityGroups := rfl
@[simp] theorem State.report_missDef (s : State) (l : List Nat) : (s.report l).missDef = s.missDef := rfl
@[simp] theorem State.report_shiftCount (s : State) (l : List Nat) : (s.report l).shiftCount = s.shiftCount := rfl
@[simp] theorem State.report_responses (s : State) (l : List Nat) : (s.report l).responses = s.responses := rfl
@[simp] theorem State.report_pending (s : State) (l : List Nat) : (s.report l).pending = s.pending := rfl
@[simp] theorem State.report_position (s : State) (l : List Nat) : (s.report l).position = s.position := rfl
@[simp] theorem State.report_events (s : State) (l : List Nat) :
    (s.report l).events = s.events ++ l.map Event.parityError := rfl
@[simp] theorem State.report_wayCfgAt (s : State) (l : List Nat) (w' : Nat) :
    (s.report l).wayCfgAt w' = s.wayCfgAt w' := rfl
@[simp] theorem State.report_matrixAt (s : State) (l : List Nat) (w' i' : Nat) :
    (s.report l).matrixAt w' i' = s.matrixAt w' i' := rfl
@[simp] theorem State.report_ramAt (s : State) (l : List Nat) (w' r' b' : Nat) :
    (s.report l).ramAt w' r' b' = s.ramAt w' r' b' := rfl
@[simp] theorem State.report_stashAt (s : State) (l : List Nat) (r' c' : Nat) :
    (s.report l).stashAt r' c' = s.stashAt r' c' := rfl
@[simp] theorem State.report_groupAt (s : State) (l : List Nat) (g' : Nat) :
    (s.report l).groupAt g' = s.groupAt g' := rfl
@[simp] theorem State.report_shiftAt (s : State) (l : List Nat) (i' : Nat) :
    (s.report l).shiftAt i' = s.shiftAt i' := rfl
@[simp] theorem State.report_ramInRange (s : State) (l : List Nat) (r' b' : Nat) :
    (s.report l).ramInRange r' b' = s.ramInRange r' b' := rfl
@[simp] theorem State.report_stashInRange (s : State) (l : List Nat) (r' c' : Nat) :
    (s.report l).stashInRange r' c' = s.stashInRange r' c' := rfl
@[simp] theorem State.report_configured (s : State) (l : List Nat) (w' : Nat) :
    (s.report l).configured w' = s.configured w' := rfl

/-! ## advance -/

@[simp] theorem State.advance_params (s : State) : (s.advance).params = s.params := rfl
@[simp] theorem State.advance_wayCfg (s : State) : (s.advance).wayCfg = s.wayCfg := rfl
@[simp] theorem State.advance_matrix (s : State) : (s.advance).matrix = s.matrix := rfl
@[simp] theorem State.advance_ram (s : State) : (s.advance).ram = s.ram := rfl
@[simp] theorem State.advance_stash (s : State) : (s.advance).stash = s.stash := rfl
@[simp] theorem State.advance_activeVersion (s : State) : (s.advance).activeVersion = s.activeVersion := rfl
@[simp] theorem State.advance_parityGroups (s : State) : (s.advance).parityGroups = s.parityGroups := rfl
@[simp] theorem State.advance_missDef (s : State) : (s.advance).missDef = s.missDef := rfl
@[simp] theorem State.advance_shiftCount (s : State) : (s.advance).shiftCount = s.shiftCount := rfl
@[simp] theorem State.advance_responses (s : State) : (s.advance).responses = s.responses := rfl
@[simp] theorem State.advance_events (s : State) : (s.advance).events = s.events := rfl
@[simp] theorem State.advance_position (s : State) : (s.advance).position = s.position := rfl
@[simp] theorem State.advance_pending (s : State) : (s.advance).pending = s.pending.tail := rfl
@[simp] theorem State.advance_wayCfgAt (s : State) (w' : Nat) :
    (s.advance).wayCfgAt w' = s.wayCfgAt w' := rfl
@[simp] theorem State.advance_matrixAt (s : State) (w' i' : Nat) :
    (s.advance).matrixAt w' i' = s.matrixAt w' i' := rfl
@[simp] theorem State.advance_ramAt (s : State) (w' r' b' : Nat) :
    (s.advance).ramAt w' r' b' = s.ramAt w' r' b' := rfl
@[simp] theorem State.advance_stashAt (s : State) (r' c' : Nat) :
    (s.advance).stashAt r' c' = s.stashAt r' c' := rfl
@[simp] theorem State.advance_groupAt (s : State) (g' : Nat) :
    (s.advance).groupAt g' = s.groupAt g' := rfl
@[simp] theorem State.advance_shiftAt (s : State) (i' : Nat) :
    (s.advance).shiftAt i' = s.shiftAt i' := rfl
@[simp] theorem State.advance_ramInRange (s : State) (r' b' : Nat) :
    (s.advance).ramInRange r' b' = s.ramInRange r' b' := rfl
@[simp] theorem State.advance_stashInRange (s : State) (r' c' : Nat) :
    (s.advance).stashInRange r' c' = s.stashInRange r' c' := rfl
@[simp] theorem State.advance_configured (s : State) (w' : Nat) :
    (s.advance).configured w' = s.configured w' := rfl

/-! ## takeCommand -/

@[simp] theorem State.takeCommand_params (s : State) : (s.takeCommand).params = s.params := rfl
@[simp] theorem State.takeCommand_wayCfg (s : State) : (s.takeCommand).wayCfg = s.wayCfg := rfl
@[simp] theorem State.takeCommand_matrix (s : State) : (s.takeCommand).matrix = s.matrix := rfl
@[simp] theorem State.takeCommand_ram (s : State) : (s.takeCommand).ram = s.ram := rfl
@[simp] theorem State.takeCommand_stash (s : State) : (s.takeCommand).stash = s.stash := rfl
@[simp] theorem State.takeCommand_activeVersion (s : State) : (s.takeCommand).activeVersion = s.activeVersion := rfl
@[simp] theorem State.takeCommand_parityGroups (s : State) : (s.takeCommand).parityGroups = s.parityGroups := rfl
@[simp] theorem State.takeCommand_missDef (s : State) : (s.takeCommand).missDef = s.missDef := rfl
@[simp] theorem State.takeCommand_shiftCount (s : State) : (s.takeCommand).shiftCount = s.shiftCount := rfl
@[simp] theorem State.takeCommand_responses (s : State) : (s.takeCommand).responses = s.responses := rfl
@[simp] theorem State.takeCommand_events (s : State) : (s.takeCommand).events = s.events := rfl
@[simp] theorem State.takeCommand_pending (s : State) : (s.takeCommand).pending = s.pending.tail := rfl
@[simp] theorem State.takeCommand_position (s : State) : (s.takeCommand).position = s.position + 1 := rfl
@[simp] theorem State.takeCommand_wayCfgAt (s : State) (w' : Nat) :
    (s.takeCommand).wayCfgAt w' = s.wayCfgAt w' := rfl
@[simp] theorem State.takeCommand_matrixAt (s : State) (w' i' : Nat) :
    (s.takeCommand).matrixAt w' i' = s.matrixAt w' i' := rfl
@[simp] theorem State.takeCommand_ramAt (s : State) (w' r' b' : Nat) :
    (s.takeCommand).ramAt w' r' b' = s.ramAt w' r' b' := rfl
@[simp] theorem State.takeCommand_stashAt (s : State) (r' c' : Nat) :
    (s.takeCommand).stashAt r' c' = s.stashAt r' c' := rfl
@[simp] theorem State.takeCommand_groupAt (s : State) (g' : Nat) :
    (s.takeCommand).groupAt g' = s.groupAt g' := rfl
@[simp] theorem State.takeCommand_shiftAt (s : State) (i' : Nat) :
    (s.takeCommand).shiftAt i' = s.shiftAt i' := rfl
@[simp] theorem State.takeCommand_ramInRange (s : State) (r' b' : Nat) :
    (s.takeCommand).ramInRange r' b' = s.ramInRange r' b' := rfl
@[simp] theorem State.takeCommand_stashInRange (s : State) (r' c' : Nat) :
    (s.takeCommand).stashInRange r' c' = s.stashInRange r' c' := rfl
@[simp] theorem State.takeCommand_configured (s : State) (w' : Nat) :
    (s.takeCommand).configured w' = s.configured w' := rfl

/-! ## clearMatrix -/

theorem State.foldl_setMatrix (l : List Nat) (s : State) (w : Nat) :
    ∃ m, l.foldl (fun t i => t.setMatrix w i 0) s = { s with matrix := m } ∧
      (Memory.wf 0 s.matrix → Memory.wf 0 m) ∧
      ∀ k, Memory.read 0 m k = if ∃ i ∈ l, k = matrixKey w i then 0 else Memory.read 0 s.matrix k := by
  induction l generalizing s with
  | nil => exact ⟨s.matrix, rfl, id, fun k => by simp⟩
  | cons i l ih =>
    obtain ⟨m, hm, hwf, hr⟩ := ih (s.setMatrix w i 0)
    refine ⟨m, hm, fun h => hwf ((State.setMatrix_matrix s w i 0).symm ▸ Memory.wf_write h _ _), fun k => ?_⟩
    rw [hr]
    by_cases h1 : ∃ j ∈ l, k = matrixKey w j
    · rw [if_pos h1, if_pos]
      obtain ⟨j, hj, e⟩ := h1
      exact ⟨j, by simp [hj], e⟩
    · rw [if_neg h1]
      by_cases h2 : k = matrixKey w i
      · simp [State.setMatrix, h2]
      · rw [if_neg]
        · simp [State.setMatrix, h2]
        · rintro ⟨j, hj, e⟩
          rcases List.mem_cons.mp hj with rfl | hj
          · exact h2 e
          · exact h1 ⟨j, hj, e⟩

/-- All that clearing a way's matrix does: its 64 rows read zero, every other row and field as before. -/
theorem State.clearMatrix_spec (s : State) (w : Nat) :
    ∃ m, s.clearMatrix w = { s with matrix := m } ∧ (Memory.wf 0 s.matrix → Memory.wf 0 m) :=
  let ⟨m, hm, hwf, _⟩ := State.foldl_setMatrix (List.range Config.hwMax) s w
  ⟨m, hm, hwf⟩

@[simp] theorem State.clearMatrix_matrixAt (s : State) (w w' i' : Nat) :
    (s.clearMatrix w).matrixAt w' i' = if w' = w ∧ i' < 64 then 0 else s.matrixAt w' i' := by
  obtain ⟨m, hm, -, hr⟩ := State.foldl_setMatrix (List.range Config.hwMax) s w
  have e : s.clearMatrix w = { s with matrix := m } := hm
  rw [e]
  show Memory.read 0 m (matrixKey w' i') = _
  rw [hr]
  congr 1
  simp only [List.mem_range, matrixKey_inj, Config.hwMax, eq_iff_iff]
  constructor
  · rintro ⟨i, hi, rfl, rfl⟩
    exact ⟨rfl, hi⟩
  · rintro ⟨rfl, hi⟩
    exact ⟨i', hi, rfl, rfl⟩

@[simp] theorem State.clearMatrix_params (s : State) (w : Nat) : (s.clearMatrix w).params = s.params := by
  obtain ⟨m, hm, -⟩ := s.clearMatrix_spec w
  rw [hm]
@[simp] theorem State.clearMatrix_wayCfg (s : State) (w : Nat) : (s.clearMatrix w).wayCfg = s.wayCfg := by
  obtain ⟨m, hm, -⟩ := s.clearMatrix_spec w
  rw [hm]
@[simp] theorem State.clearMatrix_ram (s : State) (w : Nat) : (s.clearMatrix w).ram = s.ram := by
  obtain ⟨m, hm, -⟩ := s.clearMatrix_spec w
  rw [hm]
@[simp] theorem State.clearMatrix_stash (s : State) (w : Nat) : (s.clearMatrix w).stash = s.stash := by
  obtain ⟨m, hm, -⟩ := s.clearMatrix_spec w
  rw [hm]
@[simp] theorem State.clearMatrix_activeVersion (s : State) (w : Nat) : (s.clearMatrix w).activeVersion = s.activeVersion := by
  obtain ⟨m, hm, -⟩ := s.clearMatrix_spec w
  rw [hm]
@[simp] theorem State.clearMatrix_parityGroups (s : State) (w : Nat) : (s.clearMatrix w).parityGroups = s.parityGroups := by
  obtain ⟨m, hm, -⟩ := s.clearMatrix_spec w
  rw [hm]
@[simp] theorem State.clearMatrix_missDef (s : State) (w : Nat) : (s.clearMatrix w).missDef = s.missDef := by
  obtain ⟨m, hm, -⟩ := s.clearMatrix_spec w
  rw [hm]
@[simp] theorem State.clearMatrix_shiftCount (s : State) (w : Nat) : (s.clearMatrix w).shiftCount = s.shiftCount := by
  obtain ⟨m, hm, -⟩ := s.clearMatrix_spec w
  rw [hm]
@[simp] theorem State.clearMatrix_responses (s : State) (w : Nat) : (s.clearMatrix w).responses = s.responses := by
  obtain ⟨m, hm, -⟩ := s.clearMatrix_spec w
  rw [hm]
@[simp] theorem State.clearMatrix_events (s : State) (w : Nat) : (s.clearMatrix w).events = s.events := by
  obtain ⟨m, hm, -⟩ := s.clearMatrix_spec w
  rw [hm]
@[simp] theorem State.clearMatrix_pending (s : State) (w : Nat) : (s.clearMatrix w).pending = s.pending := by
  obtain ⟨m, hm, -⟩ := s.clearMatrix_spec w
  rw [hm]
@[simp] theorem State.clearMatrix_position (s : State) (w : Nat) : (s.clearMatrix w).position = s.position := by
  obtain ⟨m, hm, -⟩ := s.clearMatrix_spec w
  rw [hm]
@[simp] theorem State.clearMatrix_wayCfgAt (s : State) (w : Nat) (w' : Nat) :
    (s.clearMatrix w).wayCfgAt w' = s.wayCfgAt w' := by
  obtain ⟨m, hm, -⟩ := s.clearMatrix_spec w
  rw [hm]
  rfl
@[simp] theorem State.clearMatrix_ramAt (s : State) (w : Nat) (w' r' b' : Nat) :
    (s.clearMatrix w).ramAt w' r' b' = s.ramAt w' r' b' := by
  obtain ⟨m, hm, -⟩ := s.clearMatrix_spec w
  rw [hm]
  rfl
@[simp] theorem State.clearMatrix_stashAt (s : State) (w : Nat) (r' c' : Nat) :
    (s.clearMatrix w).stashAt r' c' = s.stashAt r' c' := by
  obtain ⟨m, hm, -⟩ := s.clearMatrix_spec w
  rw [hm]
  rfl
@[simp] theorem State.clearMatrix_groupAt (s : State) (w : Nat) (g' : Nat) :
    (s.clearMatrix w).groupAt g' = s.groupAt g' := by
  obtain ⟨m, hm, -⟩ := s.clearMatrix_spec w
  rw [hm]
  rfl
@[simp] theorem State.clearMatrix_shiftAt (s : State) (w : Nat) (i' : Nat) :
    (s.clearMatrix w).shiftAt i' = s.shiftAt i' := by
  obtain ⟨m, hm, -⟩ := s.clearMatrix_spec w
  rw [hm]
  rfl
@[simp] theorem State.clearMatrix_ramInRange (s : State) (w : Nat) (r' b' : Nat) :
    (s.clearMatrix w).ramInRange r' b' = s.ramInRange r' b' := by
  obtain ⟨m, hm, -⟩ := s.clearMatrix_spec w
  rw [hm]
  rfl
@[simp] theorem State.clearMatrix_stashInRange (s : State) (w : Nat) (r' c' : Nat) :
    (s.clearMatrix w).stashInRange r' c' = s.stashInRange r' c' := by
  obtain ⟨m, hm, -⟩ := s.clearMatrix_spec w
  rw [hm]
  rfl
@[simp] theorem State.clearMatrix_configured (s : State) (w : Nat) (w' : Nat) :
    (s.clearMatrix w).configured w' = s.configured w' := by
  obtain ⟨m, hm, -⟩ := s.clearMatrix_spec w
  rw [hm]
  rfl

end Sys2Proof.Machine
end

