-- ==== Sys2Proof/Laws/Ops.lean ====
section
/-! SUPPORT. How a command ends: the three outcomes of a checked command, and what each writes. -/

namespace Sys2Proof.Machine

/-- All a checked command can do: it raises `ConfigError`, or `RangeError`, or runs. -/
theorem checked_cases {c r : Bool} {s : State} {run : Result} {t : State}
    (h : checked c r s run = .next t) :
    (c = true ∧ t = s.respond ⟨.configError, .empty⟩) ∨
    (c = false ∧ r = true ∧ t = s.respond ⟨.rangeError, .empty⟩) ∨
    (c = false ∧ r = false ∧ run = .next t) := by
  unfold checked raise at h
  split at h
  · exact .inl ⟨‹_›, (Host.Outcome.next.inj h).symm⟩
  · split at h
    · exact .inr (.inl ⟨by simpa using ‹¬c = true›, ‹_›, (Host.Outcome.next.inj h).symm⟩)
    · exact .inr (.inr ⟨by simpa using ‹¬c = true›, by simpa using ‹¬r = true›, h⟩)

/-- A checked command that meets none of its error conditions runs. -/
theorem checked_run {c r : Bool} {s : State} {run : Result} (hc : c = false) (hr : r = false) :
    checked c r s run = run := by simp [checked, hc, hr]

theorem checked_config {c r : Bool} {s : State} {run : Result} (hc : c = true) :
    checked c r s run = .next (s.respond ⟨.configError, .empty⟩) := by simp [checked, raise, hc]

theorem checked_range {c r : Bool} {s : State} {run : Result} (hc : c = false) (hr : r = true) :
    checked c r s run = .next (s.respond ⟨.rangeError, .empty⟩) := by simp [checked, raise, hc, hr]

@[simp] theorem complete_eq_next {p : Payload} {s t : State} :
    complete p s = .next t ↔ s.respond ⟨.ok, p⟩ = t := by simp [complete]

/-- Appending a response is injective in the response. -/
theorem State.respond_inj {s : State} {r r' : Response} : s.respond r = s.respond r' ↔ r = r' := by
  constructor
  · intro h
    have := congrArg State.responses h
    simpa using this
  · rintro rfl
    rfl

end Sys2Proof.Machine
end

