-- ==== Sys2Proof/Laws/Exec.lean ====
section
/-! SUPPORT. Every command is checked before it runs, and its two error conditions are the causes that
Safety.lean names. -/

namespace Sys2Proof.Machine

/-- A value does not fit a width exactly when it has a 1 bit at or above it. -/
theorem fitsWidth_false_iff {n : Nat} (v : BitVec n) (w : Nat) :
    fitsWidth v w = false ↔ OverWide v w := by
  rw [← Bool.not_eq_true, fitsWidth_iff]
  constructor
  · intro h
    simp only [not_forall] at h
    obtain ⟨i, hi, hb⟩ := h
    have hb : v.getLsbD i = true := by simpa using hb
    exact ⟨i, BitVec.lt_of_getLsbD hb, hi, hb⟩
  · rintro ⟨i, -, hi, hb⟩ h
    rw [h i hi] at hb
    cases hb

theorem versionFits_false_iff (p : Params) (v : Version) :
    versionFits p v = false ↔ 2 ^ p.vw ≤ v.toNat := by simp [versionFits, fitsWidth]

theorem configured_false_iff (s : State) (w : Nat) : s.configured w = false ↔ s.NoWay w := by
  simp [State.configured, or_iff_not_imp_left]

theorem ramInRange_false_iff (s : State) (r b : Nat) : s.ramInRange r b = false ↔ s.NoRamSlot r b := by
  simp [State.ramInRange, or_iff_not_imp_left]

theorem stashInRange_false_iff (s : State) (r c : Nat) :
    s.stashInRange r c = false ↔ s.NoStashSlot r c := by
  simp [State.stashInRange, or_iff_not_imp_left]

/-- What a command does when no error condition holds. -/
def effect (i : Instr) (s : State) : Result :=
  match i with
  | .cfgWay way kw hw rowLo rowW bankLo bankW vpnLo vpnW _ =>
      complete .empty
        ((s.setWayCfg way ⟨true, kw, hw, rowLo, rowW, bankLo, bankW, vpnLo, vpnW, .v2⟩).clearMatrix way)
  | .setHashRow way row _ sel => complete .empty (s.setMatrix way row sel)
  | .insert way row bank ver _ mask _ data vpn ne ctl =>
      complete .empty (s.setRam way row bank ⟨mask, data, vpn, ne, ctl, ver⟩)
  | .evict way row bank =>
      complete .empty (s.setRam way row bank { s.ramAt way row bank with ne := 0 })
  | .stashWrite row slot ver mm md idc rbs ben =>
      complete .empty (s.setStash row slot ⟨mm, md, idc, rbs, ben, ver⟩)
  | .swapVersion ver => complete .empty (s.setActiveVersion ver)
  | .setParityGroup group valid kind way row col wsel maskLo maskHi expected =>
      complete .empty (s.setGroup group
        (if valid then ⟨true, kind, way, row, col, wsel, maskHi ++ maskLo, expected⟩
         else ParityGroup.zero))
  | .setMissDefault kind missValue mask dflt =>
      complete .empty (s.setMissDef kind ⟨missValue, mask, dflt⟩)
  | .setShiftcount index count => complete .empty (s.setShift index count)
  | .lookup _ key =>
      complete (.lookup (s.resolution key s.activeVersion)
          (s.parityFailures (s.readSet key s.activeVersion)))
        (s.report (s.parityFailures (s.readSet key s.activeVersion)))
  | .hash way _ key => complete (.hash (s.hashFn way key)) s
  | .map way hash => complete (.coord ((s.wayCfgAt way).coord hash)) s
  | .wayLookup way row bank ver _ key =>
      complete (.wayHit (wayMatch (s.ramAt way row bank) key ver)) s
  | .probe row _ key => complete (.stashHit (s.probeFn row key s.activeVersion)) s
  | .pcheck group bits =>
      if checkOk (s.groupAt group) bits then complete .empty s
      else .next (s.respond ⟨.parityError, .group group⟩)

/-- Every command is checked before its effect, and its error conditions are its causes. -/
theorem exec_checked (i : Instr) (s : State) : ∃ c r, exec i s = checked c r s (effect i s) ∧
    (c = true ↔ s.ConfigCause i) ∧ (r = true ↔ s.RangeCause i) := by
  cases i
  case cfgWay =>
    refine ⟨_, _, rfl, ?_, by simp [State.RangeCause]⟩
    simp only [State.ConfigCause, dimensionsLegal, layoutLegal, Bool.or_eq_true, Bool.not_eq_true',
      Bool.and_eq_false_iff, decide_eq_false_iff_not, beq_iff_eq, not_le, not_lt, not_and_or,
      or_assoc]
    simp only [Config.kwMax, Config.hwMax, Config.rowWMax, Config.bankWMax, Config.vpnWMax]
  case setHashRow =>
    refine ⟨_, _, rfl, ?_, by simp [State.RangeCause]⟩
    simp only [State.ConfigCause, Bool.or_eq_true, Bool.not_eq_true', configured_false_iff,
      fitsWidth_false_iff, bne_iff_ne, decide_eq_false_iff_not, not_lt, or_assoc]
  case hash =>
    refine ⟨_, _, rfl, ?_, by simp [State.RangeCause]⟩
    simp only [State.ConfigCause, Bool.or_eq_true, Bool.not_eq_true', configured_false_iff,
      fitsWidth_false_iff, bne_iff_ne, or_assoc]
  case map =>
    refine ⟨_, _, rfl, ?_, ?_⟩
    · simp only [State.ConfigCause, Bool.or_eq_true, Bool.not_eq_true', configured_false_iff,
      fitsWidth_false_iff]
    · simp only [State.RangeCause, State.coordInRange, WayCfg.coord, Bool.not_eq_true',
      ramInRange_false_iff]
  case insert =>
    refine ⟨_, _, rfl, ?_, ?_⟩
    · simp only [State.ConfigCause, Bool.or_eq_true, Bool.not_eq_true', configured_false_iff,
      fitsWidth_false_iff, bne_iff_ne, versionFits_false_iff, nibbles, or_assoc]
    · simp only [State.RangeCause, Bool.not_eq_true', ramInRange_false_iff]
  case evict =>
    refine ⟨_, _, rfl, ?_, ?_⟩
    · simp only [State.ConfigCause, Bool.not_eq_true', configured_false_iff]
    · simp only [State.RangeCause, Bool.not_eq_true', ramInRange_false_iff]
  case wayLookup =>
    refine ⟨_, _, rfl, ?_, ?_⟩
    · simp only [State.ConfigCause, Bool.or_eq_true, Bool.not_eq_true', configured_false_iff,
      fitsWidth_false_iff, bne_iff_ne, versionFits_false_iff, or_assoc]
    · simp only [State.RangeCause, Bool.not_eq_true', ramInRange_false_iff]
  case stashWrite =>
    refine ⟨_, _, rfl, ?_, ?_⟩
    · simp only [State.ConfigCause, Bool.not_eq_true', versionFits_false_iff]
    · simp only [State.RangeCause, Bool.not_eq_true', stashInRange_false_iff]
  case probe =>
    refine ⟨_, _, rfl, ?_, ?_⟩
    · simp only [State.ConfigCause, keyWidthLegal, Bool.or_eq_true, Bool.not_eq_true',
      fitsWidth_false_iff, Bool.and_eq_false_iff, decide_eq_false_iff_not, not_and_or]
      simp only [Config.kwMax]
    · simp [State.RangeCause]
  case swapVersion =>
    refine ⟨_, _, rfl, ?_, by simp [State.RangeCause]⟩
    simp only [State.ConfigCause, Bool.not_eq_true', versionFits_false_iff]
  case setParityGroup g valid kind way row col wsel lo hi e =>
    refine ⟨_, _, rfl, ?_, ?_⟩
    · cases kind <;> simp [State.ConfigCause] <;> simp [Config.imageWords, Nat.succ_le_iff]
    · cases kind <;> simp only [State.RangeCause, Bool.or_eq_true, Bool.and_eq_true,
      Bool.not_eq_true', decide_eq_false_iff_not, ramInRange_false_iff, stashInRange_false_iff] <;>
      simp
  case pcheck =>
    refine ⟨_, _, rfl, ?_, ?_⟩
    · simp [State.ConfigCause]
    · simp [State.RangeCause]
  case setMissDefault =>
    refine ⟨_, _, rfl, ?_, by simp [State.RangeCause]⟩
    simp [State.ConfigCause]
    simp [Config.missKinds, Nat.succ_le_iff]
  case setShiftcount =>
    refine ⟨false, _, rfl, by simp [State.ConfigCause], ?_⟩
    simp [State.RangeCause]
  case lookup kw key =>
    refine ⟨_, _, rfl, ?_, ?_⟩
    · simp only [State.ConfigCause, keyWidthLegal, Bool.or_eq_true, Bool.not_eq_true',
      fitsWidth_false_iff, Bool.and_eq_false_iff, decide_eq_false_iff_not, not_and_or, or_assoc,
      List.any_eq_true, State.participants, List.mem_filter, List.mem_range, State.configured,
      Bool.and_eq_true, decide_eq_true_eq, bne_iff_ne]
      simp only [Config.kwMax, and_assoc, and_self_left]
    · simp only [State.RangeCause, State.coordOf, State.coordInRange, WayCfg.coord,
      Bool.not_eq_true', ramInRange_false_iff, List.any_eq_true, State.participants,
      List.mem_filter, List.mem_range, State.configured, Bool.and_eq_true, decide_eq_true_eq]
      constructor
      · rintro ⟨w, ⟨h1, -, h2⟩, h3⟩
        exact ⟨w, h1, h2, h3⟩
      · rintro ⟨w, h1, h2, h3⟩
        exact ⟨w, ⟨h1, h1, h2⟩, h3⟩
/-- A command answers `ConfigError` on its causes, else `RangeError` on its causes, else has its effect. -/
theorem exec_cases (i : Instr) (s : State) :
    (s.ConfigCause i ∧ exec i s = .next (s.respond ⟨.configError, .empty⟩)) ∨
    (¬ s.ConfigCause i ∧ s.RangeCause i ∧ exec i s = .next (s.respond ⟨.rangeError, .empty⟩)) ∨
    (¬ s.ConfigCause i ∧ ¬ s.RangeCause i ∧ exec i s = effect i s) := by
  obtain ⟨c, r, he, hc, hr⟩ := exec_checked i s
  rw [he, ← hc, ← hr]
  cases c <;> cases r <;> simp [checked, raise]

theorem exec_effect {i : Instr} {s : State} (hc : ¬ s.ConfigCause i) (hr : ¬ s.RangeCause i) :
    exec i s = effect i s := by
  rcases exec_cases i s with h | h | h
  · exact absurd h.1 hc
  · exact absurd h.2.1 hr
  · exact h.2.2

/-- A command answered with status `OK` met no error condition and had its effect. -/
theorem exec_ok {i : Instr} {s t : State} {p : Payload} (h : exec i s = .next t)
    (hr : t.responses = s.responses ++ [⟨.ok, p⟩]) :
    ¬ s.ConfigCause i ∧ ¬ s.RangeCause i ∧ effect i s = .next t := by
  rcases exec_cases i s with ⟨-, h'⟩ | ⟨-, -, h'⟩ | ⟨h1, h2, h'⟩ <;> rw [h'] at h
  · cases h
    simp at hr
  · cases h
    simp at hr
  · exact ⟨h1, h2, h⟩

/-! ## What no output, no schedule and no index changes -/

@[simp] theorem State.respond_engine (s : State) (r : Response) : (s.respond r).engine = s.engine := rfl
@[simp] theorem State.report_engine (s : State) (l : List Nat) : (s.report l).engine = s.engine := rfl
@[simp] theorem State.advance_engine (s : State) : s.advance.engine = s.engine := rfl
@[simp] theorem State.takeCommand_engine (s : State) : s.takeCommand.engine = s.engine := rfl

/-- The invariant speaks of the engine's own state only. -/
theorem State.Inv.of_engine {s t : State} (h : t.engine = s.engine) (hi : s.Inv) : t.Inv := by
  obtain ⟨p, a1, a2, a3, a4, a5, a6, a7, a8, r, e, pe, po⟩ := s
  obtain ⟨p', b1, b2, b3, b4, b5, b6, b7, b8, r', e', pe', po'⟩ := t
  simp only [State.engine, State.mk.injEq] at h
  obtain ⟨rfl, rfl, rfl, rfl, rfl, rfl, rfl, rfl, rfl, -⟩ := h
  obtain ⟨i1, i2, i3, i4, i5, i6, i7, i8, i9⟩ := hi
  exact ⟨i1, ⟨i2.1, i2.2, i2.3, i2.4, i2.5, i2.6⟩, i3, i4, i5, i6, i7, i8, i9⟩

end Sys2Proof.Machine
end

