-- ==== Sys2Proof/Laws/Match.lean ====
section
/-! SUPPORT. What the pure functions of a lookup compute: the hash, the two match conditions, the search for
the lowest index, the read set. -/

namespace Sys2Proof.Machine

/-! ## The hash -/

/-- Bit `i` of a hash: the XOR of the key bits that row `i` selects, below the hash width. -/
theorem State.hashFn_getLsbD (s : State) (w : Nat) (key : Wide) (i : Nat) :
    (s.hashFn w key).getLsbD i = (decide (i < 64) && (decide (i < (s.wayCfgAt w).hw) &&
      xorUpTo (fun j => (s.matrixAt w i).getLsbD j && key.getLsbD j) (s.wayCfgAt w).kw)) := by
  rw [State.hashFn, getLsbD_ofNat_ofBits]

/-! ## The match conditions -/

/-- Two values agree under a mask exactly when they agree in every bit the mask has. -/
theorem and_eq_and_iff (x y m : Wide) :
    x &&& m = y &&& m ↔ ∀ j, j < 128 → m.getLsbD j = true → x.getLsbD j = y.getLsbD j := by
  constructor
  · intro h j _ hm
    have := congrArg (·.getLsbD j) h
    simpa [hm] using this
  · intro h
    apply BitVec.eq_of_getLsbD_eq
    intro j hj
    rw [BitVec.getLsbD_and, BitVec.getLsbD_and]
    cases hm : m.getLsbD j
    · simp
    · rw [h j hj hm]

theorem RamEntry.hits_iff (e : RamEntry) (key : Wide) (ver : Version) :
    e.hits key ver = true ↔ e.Matches key ver := by
  simp only [RamEntry.hits, RamEntry.enabled, RamEntry.effectiveMask, RamEntry.Matches, Bool.and_eq_true,
    bne_iff_ne, beq_iff_eq, and_eq_and_iff, BitVec.getLsbD_and, nexp_getLsbD, decide_eq_true_eq, and_assoc]
  constructor
  · rintro ⟨h1, h2, h3⟩
    exact ⟨h1, h2, fun j hj hm hn => h3 j hj ⟨hm, hj, hn⟩⟩
  · rintro ⟨h1, h2, h3⟩
    exact ⟨h1, h2, fun j hj hm => h3 j hj hm.1 hm.2.2⟩

theorem StashEntry.hits_iff (e : StashEntry) (key : Wide) (av : Version) :
    e.hits key av = true ↔ e.Matches key av := by
  simp only [StashEntry.hits, StashEntry.populated, StashEntry.Matches, Bool.and_eq_true, beq_iff_eq,
    and_eq_and_iff, and_assoc]

/-! ## The lowest index -/

/-- The search through `0 .. n - 1` gives what the lowest index with a value has. -/
theorem findSome_range {α : Type} (f : Nat → Option α) {n c : Nat} {x : α} (hc : c < n)
    (hx : f c = some x) (hlt : ∀ c', c' < c → f c' = none) : (List.range n).findSome? f = some x := by
  obtain ⟨k, rfl⟩ : ∃ k, n = c + (k + 1) := ⟨n - c - 1, by omega⟩
  rw [List.range_add, List.findSome?_append,
    List.findSome?_eq_none_iff.mpr fun c' h => hlt c' (List.mem_range.mp h)]
  simp [List.range_succ_eq_map, hx]

/-- A search through an ascending list gives what its lowest member with a value has. -/
theorem findSome_sorted {α : Type} (f : Nat → Option α) {l : List Nat} (hl : l.Pairwise (· < ·))
    {c : Nat} {x : α} (hc : c ∈ l) (hx : f c = some x) (hlt : ∀ c' ∈ l, c' < c → f c' = none) :
    l.findSome? f = some x := by
  induction l with
  | nil => simp at hc
  | cons a l ih =>
    have hp := List.pairwise_cons.mp hl
    rcases List.mem_cons.mp hc with rfl | hc
    · simp [hx]
    · have ha : f a = none := hlt a (by simp) (hp.1 c hc)
      simp only [List.findSome?_cons, ha]
      exact ih hp.2 hc fun c' h => hlt c' (by simp [h])

/-! ## The participating ways and the read set -/

theorem State.configured_lt {s : State} {w : Nat} (h : s.configured w = true) : w < s.params.nw := by
  simp only [State.configured, Bool.and_eq_true, decide_eq_true_eq] at h
  exact h.1

theorem State.mem_participants (s : State) (w : Nat) : w ∈ s.participants ↔ s.configured w = true := by
  simp only [State.participants, List.mem_filter, List.mem_range, and_iff_right_iff_imp]
  exact State.configured_lt

theorem State.participants_ascending (s : State) : s.participants.Pairwise (· < ·) :=
  List.pairwise_lt_range.filter _

theorem State.wayHit_none_of_not_configured {s : State} {w : Nat} (h : s.configured w = false) (key : Wide)
    (av : Version) : s.wayHit key av w = none := by simp [State.wayHit, h]

/-- What a way reports: a hit exactly when it takes part and the entry at the key's coordinate matches. -/
theorem State.wayHit_eq_some {s : State} {key : Wide} {av : Version} {w : Nat} {h : WayHit} :
    s.wayHit key av w = some h ↔
      s.configured w = true ∧
      (s.ramAt w (s.coordOf key w).row (s.coordOf key w).bank).Matches key av ∧
      h = ⟨w, (s.coordOf key w).row, (s.coordOf key w).bank,
        (s.ramAt w (s.coordOf key w).row (s.coordOf key w).bank).vpn⟩ := by
  unfold State.wayHit wayMatch
  by_cases hc : s.configured w = true
  · by_cases hm : (s.ramAt w (s.coordOf key w).row (s.coordOf key w).bank).hits key av = true
    · simp [hc, hm, (RamEntry.hits_iff _ _ _).mp hm, eq_comm]
    · simp [hc, hm, (not_congr (RamEntry.hits_iff _ _ _)).mp hm]
  · simp [hc]

theorem State.allMiss_iff (s : State) (key : Wide) (av : Version) :
    s.allMiss key av = true ↔ ∀ w, s.wayHit key av w = none := by
  simp only [State.allMiss, State.wayHits, List.all_eq_true, List.mem_map, List.mem_range,
    forall_exists_index, and_imp, forall_apply_eq_imp_iff₂, Option.isNone_iff_eq_none]
  constructor
  · intro h w
    by_cases hw : s.configured w = true
    · exact h w (State.configured_lt hw)
    · exact State.wayHit_none_of_not_configured (by simpa using hw) key av
  · exact fun h w _ => h w

theorem State.mem_readSet (s : State) (key : Wide) (av : Version) (slot : SlotRef) :
    slot ∈ s.readSet key av ↔ s.InReadSet key av slot := by
  simp only [State.readSet, State.InReadSet, List.mem_append, List.mem_map, State.mem_participants,
    ← State.allMiss_iff]
  refine or_congr ⟨fun ⟨w, h, e⟩ => ⟨w, h, e.symm⟩, fun ⟨w, h, e⟩ => ⟨w, h, e.symm⟩⟩ ?_
  by_cases h : s.allMiss key av = true
  · simp only [h, if_true, List.mem_flatMap, State.mem_participants, List.mem_map, List.mem_range, true_and]
    exact ⟨fun ⟨w, hw, c, hc, e⟩ => ⟨w, c, hw, hc, e.symm⟩,
      fun ⟨w, c, hw, hc, e⟩ => ⟨w, hw, c, hc, e.symm⟩⟩
  · simp [h]

end Sys2Proof.Machine
end

