-- ==== Sys2Proof/Laws/Parity.lean ====
section
/-! SUPPORT. What a parity check counts, and what a flipped bit is in the image words of an entry. -/

namespace Sys2Proof.Machine

/-- A check passes exactly when the number of masked 1 bits has the expected parity. -/
theorem checkOk_iff (g : ParityGroup) (bits : BitVec 32) :
    checkOk g bits = true ↔ ones (bits &&& g.mask) % 2 = g.expected.toNat := by
  rw [checkOk, beq_iff_eq, parity, xorUpTo_eq_odd, ones]
  rcases Nat.mod_two_eq_zero_or_one ((List.range 32).filter (bits &&& g.mask).getLsbD).length with h | h <;>
    cases g.expected <;> simp [h]

theorem oneBit_getLsbD (n i j : Nat) : (oneBit n i).getLsbD j = (decide (j < n) && decide (i = j)) := by
  rw [oneBit, BitVec.getLsbD_ofNat, Nat.testBit_two_pow]

theorem wordOfWide_getLsbD (x : Wide) (k j : Nat) :
    (wordOfWide x k).getLsbD j = (decide (j < 32) && x.getLsbD (32 * k + j)) := by
  rw [wordOfWide, BitVec.getLsbD_extractLsb']

theorem wordOfWide_flip (x : Wide) (k k' b j : Nat) (hb : b < 32) (hj : j < 32) (hk' : k' < 4) :
    (wordOfWide (x ^^^ oneBit 128 (32 * k + b)) k').getLsbD j =
      ((wordOfWide x k').getLsbD j ^^ decide (k' = k ∧ j = b)) := by
  rw [wordOfWide_getLsbD, wordOfWide_getLsbD, BitVec.getLsbD_xor, oneBit_getLsbD]
  have : decide (32 * k + b = 32 * k' + j) = decide (k' = k ∧ j = b) := by
    rw [decide_eq_decide]
    omega
  rw [this, decide_eq_true hj, 
    decide_eq_true (show 32 * k' + j < 128 by omega)]
  simp

/-- The image words of a way entry with one bit flipped differ from the entry's in that bit alone. -/
theorem RamEntry.flip_image (e : RamEntry) {wsel bit wsel' j : Nat} (hw : wsel < 10) (hb : bit < 32)
    (hw' : wsel' < 10) (hj : j < 32) :
    ((e.flip wsel bit).image wsel').getLsbD j =
      ((e.image wsel').getLsbD j ^^ decide (wsel' = wsel ∧ j = bit)) := by
  unfold RamEntry.flip
  split
  · unfold RamEntry.image
    split
    · exact wordOfWide_flip e.mask wsel wsel' bit j hb hj (by assumption)
    · simp only []
      rw [decide_eq_false (by omega), Bool.xor_false]
  split
  · unfold RamEntry.image
    split
    · simp only []
      rw [decide_eq_false (by omega), Bool.xor_false]
    split
    · rw [wordOfWide_flip e.data _ _ bit j hb hj (by omega)]
      congr 2
      apply propext
      omega
    · simp only []
      rw [decide_eq_false (by omega), Bool.xor_false]
  split
  · unfold RamEntry.image
    subst wsel
    repeat' split
    all_goals first
      | rw [decide_eq_false (by omega), Bool.xor_false]
      | skip
    rw [BitVec.getLsbD_xor, oneBit_getLsbD, decide_eq_true hj]
    simp [*, eq_comm]
  obtain rfl : wsel = 9 := by omega
  by_cases h9 : wsel' = 9
  · subst h9
    have image9 : ∀ e : RamEntry, e.image 9 = e.ver ++ e.ctl ++ e.vpn := fun _ => rfl
    simp only [image9, BitVec.getLsbD_append, true_and]
    repeat' split
    all_goals simp only [BitVec.getLsbD_xor, oneBit_getLsbD]
    all_goals first
      | rw [decide_eq_false (p := j = bit) (by omega), Bool.xor_false]
      | (congr 1; rw [decide_eq_true (by omega), Bool.true_and, decide_eq_decide]; omega)
  · unfold RamEntry.image
    repeat' split
    all_goals (rw [decide_eq_false (by omega), Bool.xor_false])

/-- The same for a stash entry, on a bit that is backed by storage. -/
theorem StashEntry.flip_image (e : StashEntry) {wsel bit wsel' j : Nat} (hw : wsel < 10) (hb : bit < 32)
    (h8 : wsel = 8 → bit < 25) (h9 : wsel = 9 → bit < 8) (hw' : wsel' < 10) (hj : j < 32) :
    ((e.flip wsel bit).image wsel').getLsbD j =
      ((e.image wsel').getLsbD j ^^ decide (wsel' = wsel ∧ j = bit)) := by
  unfold StashEntry.flip
  split
  · unfold StashEntry.image
    split
    · exact wordOfWide_flip e.mm wsel wsel' bit j hb hj (by assumption)
    · simp only []
      rw [decide_eq_false (by omega), Bool.xor_false]
  split
  · unfold StashEntry.image
    split
    · simp only []
      rw [decide_eq_false (by omega), Bool.xor_false]
    split
    · rw [wordOfWide_flip e.md _ _ bit j hb hj (by omega)]
      congr 2
      apply propext
      omega
    · simp only []
      rw [decide_eq_false (by omega), Bool.xor_false]
  have image8 : ∀ e : StashEntry, e.image 8 = 0#7 ++ BitVec.ofBool e.ben ++ e.rbs ++ e.idc := fun _ => rfl
  have image9 : ∀ e : StashEntry, e.image 9 = 0#24 ++ e.ver := fun _ => rfl
  have ne : ∀ {f : StashEntry}, wsel' ≠ wsel → f.image wsel' = e.image wsel' →
      (f.image wsel').getLsbD j = ((e.image wsel').getLsbD j ^^ decide (wsel' = wsel ∧ j = bit)) := by
    intro f h1 h2
    rw [h2, decide_eq_false (by omega), Bool.xor_false]
  split
  · subst wsel
    have h8 := h8 rfl
    by_cases h : wsel' = 8
    · subst h
      repeat' split
      all_goals simp only [image8, BitVec.getLsbD_append, true_and]
      all_goals repeat' split
      all_goals try simp only [BitVec.getLsbD_xor, oneBit_getLsbD]
      all_goals first
        | rw [decide_eq_false (p := j = bit) (by omega), Bool.xor_false]
        | (congr 1; rw [decide_eq_true (by omega), Bool.true_and, decide_eq_decide]; omega)
        | (obtain rfl : bit = 24 := by omega
           obtain rfl : j = 24 := by omega
           simp)
    · repeat' split
      all_goals
        refine ne h ?_
        unfold StashEntry.image
        repeat' split
        all_goals rfl
  · obtain rfl : wsel = 9 := by omega
    have h9 := h9 rfl
    by_cases h : wsel' = 9
    · subst h
      simp only [image9, BitVec.getLsbD_append, true_and]
      repeat' split
      all_goals try simp only [BitVec.getLsbD_xor, oneBit_getLsbD]
      all_goals first
        | rw [decide_eq_false (p := j = bit) (by omega), Bool.xor_false]
        | (congr 1; rw [decide_eq_true (by omega), Bool.true_and, decide_eq_decide]; omega)
    · refine ne h ?_
      unfold StashEntry.image
      repeat' split
      all_goals rfl

end Sys2Proof.Machine
end

