-- ==== Sys2Proof/Laws/PerInstr.lean ====
section
/-! SUPPORT. The family `EncodeShape`, one lemma a command: the frame of a command carries its opcode in
`W0[7:0]` and has the word count of its row (30_encoding.md R72, R74). -/

namespace Sys2Proof.Laws

/-- The opcode byte and the word count of a command's frame. -/
def EncodeShape.Statement (i : Instr) : Prop :=
  (encodeHeader i).op = i.opcode ∧ (encode i).words.length = frameWords i.opcode

theorem EncodeShape.cfgWay (way kw hw rowLo rowW bankLo bankW vpnLo vpnW : Nat) (layout : HashLayout) :
    EncodeShape.Statement (.cfgWay way kw hw rowLo rowW bankLo bankW vpnLo vpnW layout) := ⟨rfl, rfl⟩

theorem EncodeShape.setHashRow (way row kw : Nat) (sel : Wide) :
    EncodeShape.Statement (.setHashRow way row kw sel) := ⟨rfl, rfl⟩

theorem EncodeShape.insert (way row bank : Nat) (ver : Version) (mw : Nat) (mask : Wide) (dw : Nat)
    (data : Wide) (vpn : BitVec 16) (ne : BitVec 32) (ctl : BitVec 8) :
    EncodeShape.Statement (.insert way row bank ver mw mask dw data vpn ne ctl) := ⟨rfl, rfl⟩

theorem EncodeShape.evict (way row bank : Nat) : EncodeShape.Statement (.evict way row bank) := ⟨rfl, rfl⟩

theorem EncodeShape.stashWrite (row slot : Nat) (ver : Version) (mm md : Wide) (idc : BitVec 16)
    (rbs : BitVec 8) (ben : Bool) :
    EncodeShape.Statement (.stashWrite row slot ver mm md idc rbs ben) := ⟨rfl, rfl⟩

theorem EncodeShape.swapVersion (ver : Version) : EncodeShape.Statement (.swapVersion ver) := ⟨rfl, rfl⟩

theorem EncodeShape.setParityGroup (group : Nat) (valid : Bool) (kind : SlotKind)
    (way row col wsel : Nat) (maskLo maskHi : BitVec 16) (expected : Bool) :
    EncodeShape.Statement (.setParityGroup group valid kind way row col wsel maskLo maskHi expected) :=
  ⟨rfl, rfl⟩

theorem EncodeShape.setMissDefault (kind : Nat) (missValue mask dflt : BitVec 32) :
    EncodeShape.Statement (.setMissDefault kind missValue mask dflt) := ⟨rfl, rfl⟩

theorem EncodeShape.setShiftcount (index : Nat) (count : BitVec 8) :
    EncodeShape.Statement (.setShiftcount index count) := ⟨rfl, rfl⟩

theorem EncodeShape.lookup (kw : Nat) (key : Wide) : EncodeShape.Statement (.lookup kw key) := ⟨rfl, rfl⟩

theorem EncodeShape.hash (way kw : Nat) (key : Wide) :
    EncodeShape.Statement (.hash way kw key) := ⟨rfl, rfl⟩

theorem EncodeShape.map (way : Nat) (value : Word) : EncodeShape.Statement (.map way value) := ⟨rfl, rfl⟩

theorem EncodeShape.wayLookup (way row bank : Nat) (ver : Version) (kw : Nat) (key : Wide) :
    EncodeShape.Statement (.wayLookup way row bank ver kw key) := ⟨rfl, rfl⟩

theorem EncodeShape.probe (row kw : Nat) (key : Wide) :
    EncodeShape.Statement (.probe row kw key) := ⟨rfl, rfl⟩

theorem EncodeShape.pcheck (group : Nat) (bits : BitVec 32) :
    EncodeShape.Statement (.pcheck group bits) := ⟨rfl, rfl⟩

end Sys2Proof.Laws
end

