-- ==== Sys2Proof/Machine/Text.lean ====
section
/-! DEFINITION. The text form of a command with its default operands (30_encoding.md R92) and the three
pseudo-commands, each an abbreviation for commands and nothing more (R93). -/

namespace Sys2Proof

/-- One `name=value` operand, in decimal (30_encoding.md R92). -/
def operandText (name : String) (value : Nat) : String := " " ++ name ++ "=" ++ toString value

/-- A mnemonic and its operands in order. -/
def commandText (mnemonic : String) (operands : List (String × Nat)) : String :=
  operands.foldl (fun t o => t ++ operandText o.1 o.2) mnemonic

/-- The text form of a command, every operand written out (30_encoding.md R92). -/
def Instr.text : Instr → String
  | .cfgWay way kw hw rowLo rowW bankLo bankW vpnLo vpnW layout =>
      commandText "CFG_WAY" [("w", way), ("kw", kw), ("hw", hw), ("row_lo", rowLo), ("row_w", rowW),
        ("bank_lo", bankLo), ("bank_w", bankW), ("vpn_lo", vpnLo), ("vpn_w", vpnW),
        ("hlv", layout.bit.toNat)]
  | .setHashRow way row kw sel =>
      commandText "SET_HASH_ROW" [("w", way), ("i", row), ("kw", kw), ("sel", sel.toNat)]
  | .insert way row bank ver mw mask dw data vpn ne ctl =>
      commandText "INSERT" [("w", way), ("r", row), ("b", bank), ("v", ver.toNat), ("kw", mw),
        ("mask", mask.toNat), ("dw", dw), ("data", data.toNat), ("vpn", vpn.toNat), ("ne", ne.toNat),
        ("ctl", ctl.toNat)]
  | .evict way row bank => commandText "EVICT" [("w", way), ("r", row), ("b", bank)]
  | .stashWrite row slot ver mm md idc rbs ben =>
      commandText "STASH_WRITE" [("r", row), ("s", slot), ("v", ver.toNat), ("mm", mm.toNat),
        ("md", md.toNat), ("idc", idc.toNat), ("rbs", rbs.toNat), ("ben", ben.toNat)]
  | .swapVersion ver => commandText "SWAP_VERSION" [("v", ver.toNat)]
  | .setParityGroup group valid kind way row col wsel maskLo maskHi expected =>
      commandText "SET_PARITY_GROUP" [("g", group), ("valid", valid.toNat), ("kind", kind.bit.toNat),
        ("way", way), ("row", row), ("col", col), ("wsel", wsel), ("mask_lo", maskLo.toNat),
        ("mask_hi", maskHi.toNat), ("expected", expected.toNat)]
  | .setMissDefault kind missValue mask dflt =>
      commandText "SET_MISS_DEFAULT" [("k", kind), ("miss_value", missValue.toNat),
        ("mask", mask.toNat), ("dflt", dflt.toNat)]
  | .setShiftcount index count => commandText "SET_SHIFTCOUNT" [("i", index), ("count", count.toNat)]
  | .lookup kw key => commandText "LOOKUP" [("kw", kw), ("key", key.toNat)]
  | .hash way kw key => commandText "HASH" [("w", way), ("kw", kw), ("key", key.toNat)]
  | .map way value => commandText "MAP" [("w", way), ("hash", value.toNat)]
  | .wayLookup way row bank ver kw key =>
      commandText "WAY_LOOKUP" [("w", way), ("r", row), ("b", bank), ("v", ver.toNat), ("kw", kw),
        ("key", key.toNat)]
  | .probe row kw key => commandText "PROBE" [("r", row), ("kw", kw), ("key", key.toNat)]
  | .pcheck group bits => commandText "PCHECK" [("g", group), ("bits", bits.toNat)]

/-! ## Commands with default operands (30_encoding.md R92) -/

/-- `CFG_WAY` with `hlv` 1 by default. -/
def Instr.cfgWayText (w kw hw rowLo rowW bankLo bankW vpnLo vpnW : Nat)
    (hlv : HashLayout := .v2) : Instr :=
  .cfgWay w kw hw rowLo rowW bankLo bankW vpnLo vpnW hlv

/-- All `ceil(kw/4)` nibble enables set, the default `ne` of `INSERT`. -/
def allNibbles (kw : Nat) : BitVec 32 := BitVec.ofNat 32 (2 ^ Machine.nibbles kw - 1)

/-- `INSERT` with the defaults `v` 0, `dw` = `kw`, `vpn` 0, every nibble of the key enabled, `ctl` 0. -/
def Instr.insertText (w r b kw : Nat) (mask data : Wide) (v : Version := 0) (dw : Nat := kw)
    (vpn : BitVec 16 := 0) (ne : BitVec 32 := allNibbles kw) (ctl : BitVec 8 := 0) : Instr :=
  .insert w r b v kw mask dw data vpn ne ctl

/-- `STASH_WRITE` with the defaults `v` 0, `idc` 0, `rbs` 0, `ben` 1. -/
def Instr.stashWriteText (r s : Nat) (mm md : Wide) (v : Version := 0) (idc : BitVec 16 := 0)
    (rbs : BitVec 8 := 0) (ben : Bool := true) : Instr :=
  .stashWrite r s v mm md idc rbs ben

/-- `SET_PARITY_GROUP` with the defaults `valid` 1, `way` 0. -/
def Instr.setParityGroupText (g : Nat) (kind : SlotKind) (row col wsel : Nat)
    (maskLo maskHi : BitVec 16) (expected : Bool) (valid : Bool := true) (way : Nat := 0) : Instr :=
  .setParityGroup g valid kind way row col wsel maskLo maskHi expected

/-! ## Pseudo-commands (30_encoding.md R93) -/

/-- `HASH_IDENTITY w=<w> n=<n>` for a way of key width `kw`: row `i` selects key bit `i`. -/
def hashIdentity (w kw n : Nat) : List Instr :=
  (List.range n).map fun i => .setHashRow w i kw (BitVec.ofNat 128 (2 ^ i))

/-- `CLEAR_PARITY_GROUP g=<g>`. -/
def clearParityGroup (g : Nat) : Instr := .setParityGroup g false .ram 0 0 0 0 0 0 false

/-- `STASH_CLEAR r=<r> s=<s>`. -/
def stashClear (r s : Nat) : Instr := .stashWrite r s 0 0 0 0 0 false

end Sys2Proof
end

