-- ==== Sys2Proof/Tests/Slice0.lean ====
section
/-! SUPPORT. Tests of the model against words and results written out in the spec, and for every obligation
that has hypotheses a witness that meets them. -/

namespace Sys2Proof.Tests

open Sys2Proof.Machine

-- The tests below ask the kernel one by one: side by side they would take a thread each.
set_option Elab.async false

/-! ## Helpers -/

/-- The command of a frame, if it is legal. -/
def decoded (f : Frame) : Option Instr :=
  match decode f with
  | .ok i => some i
  | .error _ => none

/-- Why a frame is refused, if it is illegal. -/
def rejected (f : Frame) : Option IllegalFrame :=
  match decode f with
  | .ok _ => none
  | .error e => some e

/-- The state after a command. -/
def after (i : Instr) (s : State) : State :=
  match exec i s with
  | .next t => t
  | _ => s

/-- The state after a step. -/
def stepped (s : State) : Option State :=
  match step s with
  | .next t => some t
  | _ => none

/-- The last response. -/
def answer (s : State) : Option Response := s.responses.getLast?

theorem effect_next (i : Instr) (s : State) : ∃ t, effect i s = .next t := by
  cases i
  case pcheck =>
    simp only [effect]
    split <;> exact ⟨_, rfl⟩
  all_goals exact ⟨_, rfl⟩

theorem exec_after (i : Instr) (s : State) : exec i s = .next (after i s) := by
  have h : ∃ t, exec i s = .next t := by
    rcases exec_cases i s with ⟨-, h⟩ | ⟨-, -, h⟩ | ⟨-, -, h⟩
    · exact ⟨_, h⟩
    · exact ⟨_, h⟩
    · exact h ▸ effect_next i s
  obtain ⟨t, h⟩ := h
  rw [after, h]

theorem step_of_stepped {s t : State} (h : stepped s = some t) : step s = .next t := by
  unfold stepped at h
  split at h
  · rename_i t' h'
    rw [h', Option.some.inj h]
  · cases h

/-- The machine of 95_test_vectors.md section 2.2: way 1 with an 8-bit key and four hash bits. -/
def hasher : State :=
  ((((State.reset.setWayCfg 1 ⟨true, 8, 4, 0, 2, 2, 2, 0, 4, .v2⟩).setMatrix 1 0 0x0F).setMatrix 1 1
    0xF0).setMatrix 1 2 0xAA).setMatrix 1 3 0xFF

/-- The same with an entry for key `0xB4` at its coordinate, one in the stash, a failing parity group on the
entry's data, a miss default and a shift count. -/
def full : State :=
  ((((hasher.setRam 1 3 0 ⟨0xFF, 0xB4, 0x123, 0x3, 0, 0⟩).setStash 3 2
    ⟨0xFF, 0xB4, 0x3333, 3, true, 0⟩).setGroup 0 ⟨true, .ram, 1, 3, 0, 4, 0xFF, true⟩).setMissDef 0
    ⟨1, 2, 3⟩).setShift 1 5

/-- `full` with a schedule. -/
def sched (ins : List Input) : State := { full with pending := ins }

/-! ## Well-formedness: each check refuses an ill-formed term -/

theorem test_cfgWay_ill_formed :
    Instr.wellFormed (.cfgWay 256 32 32 1 3 4 2 6 16 .v2) = false ∧
    Instr.wellFormed (.cfgWay 0 256 32 1 3 4 2 6 16 .v2) = false ∧
    Instr.wellFormed (.cfgWay 0 32 256 1 3 4 2 6 16 .v2) = false ∧
    Instr.wellFormed (.cfgWay 0 32 32 256 3 4 2 6 16 .v2) = false ∧
    Instr.wellFormed (.cfgWay 0 32 32 1 256 4 2 6 16 .v2) = false ∧
    Instr.wellFormed (.cfgWay 0 32 32 1 3 256 2 6 16 .v2) = false ∧
    Instr.wellFormed (.cfgWay 0 32 32 1 3 4 256 6 16 .v2) = false ∧
    Instr.wellFormed (.cfgWay 0 32 32 1 3 4 2 256 16 .v2) = false ∧
    Instr.wellFormed (.cfgWay 0 32 32 1 3 4 2 6 256 .v2) = false := by decide +kernel

theorem test_setHashRow_ill_formed :
    Instr.wellFormed (.setHashRow 256 0 8 1) = false ∧
    Instr.wellFormed (.setHashRow 0 256 8 1) = false ∧
    Instr.wellFormed (.setHashRow 0 0 256 1) = false := by decide +kernel

theorem test_insert_ill_formed :
    Instr.wellFormed (.insert 256 0 0 0 8 1 8 1 0 1 0) = false ∧
    Instr.wellFormed (.insert 0 256 0 0 8 1 8 1 0 1 0) = false ∧
    Instr.wellFormed (.insert 0 0 256 0 8 1 8 1 0 1 0) = false ∧
    Instr.wellFormed (.insert 0 0 0 0 256 1 8 1 0 1 0) = false ∧
    Instr.wellFormed (.insert 0 0 0 0 8 1 256 1 0 1 0) = false := by decide +kernel

theorem test_evict_ill_formed :
    Instr.wellFormed (.evict 256 0 0) = false ∧
    Instr.wellFormed (.evict 0 256 0) = false ∧
    Instr.wellFormed (.evict 0 0 256) = false := by decide +kernel

theorem test_stashWrite_ill_formed :
    Instr.wellFormed (.stashWrite 256 0 0 1 1 0 0 true) = false ∧
    Instr.wellFormed (.stashWrite 0 256 0 1 1 0 0 true) = false := by decide +kernel

theorem test_setParityGroup_ill_formed :
    Instr.wellFormed (.setParityGroup 256 true .ram 0 0 0 0 0 0 true) = false ∧
    Instr.wellFormed (.setParityGroup 0 true .ram 256 0 0 0 0 0 true) = false ∧
    Instr.wellFormed (.setParityGroup 0 true .ram 0 256 0 0 0 0 true) = false ∧
    Instr.wellFormed (.setParityGroup 0 true .ram 0 0 256 0 0 0 true) = false ∧
    Instr.wellFormed (.setParityGroup 0 true .ram 0 0 0 256 0 0 true) = false := by decide +kernel

theorem test_setMissDefault_ill_formed :
    Instr.wellFormed (.setMissDefault 256 0 0 0) = false := by decide +kernel

theorem test_setShiftcount_ill_formed :
    Instr.wellFormed (.setShiftcount 256 0) = false := by decide +kernel

theorem test_lookup_ill_formed : Instr.wellFormed (.lookup 256 0) = false := by decide +kernel

theorem test_hash_ill_formed :
    Instr.wellFormed (.hash 256 8 0) = false ∧
    Instr.wellFormed (.hash 0 256 0) = false := by decide +kernel

theorem test_map_ill_formed : Instr.wellFormed (.map 256 0) = false := by decide +kernel

theorem test_wayLookup_ill_formed :
    Instr.wellFormed (.wayLookup 256 0 0 0 8 0) = false ∧
    Instr.wellFormed (.wayLookup 0 256 0 0 8 0) = false ∧
    Instr.wellFormed (.wayLookup 0 0 256 0 8 0) = false ∧
    Instr.wellFormed (.wayLookup 0 0 0 0 256 0) = false := by decide +kernel

theorem test_probe_ill_formed :
    Instr.wellFormed (.probe 256 8 0) = false ∧
    Instr.wellFormed (.probe 0 256 0) = false := by decide +kernel

theorem test_pcheck_ill_formed : Instr.wellFormed (.pcheck 256 0) = false := by decide +kernel

/-! ## Decoding: words written out in 95_test_vectors.md section 2.1 -/

theorem test_decode_cfgWay :
    decoded ⟨0x0000200000000001, [0x0110060204030120]⟩ =
      some (.cfgWay 0 32 32 1 3 4 2 6 16 .v2) := by decide +kernel

theorem test_decode_setHashRow :
    decoded ⟨0x0000200000050002, [0x20, 0]⟩ =
      some (.setHashRow 0 5 32 0x20) := by decide +kernel

theorem test_decode_insert :
    decoded ⟨0x0A94200000000003, [0xFFFFFFFE, 0, 0x12340000, 0, 0x00002000000000FF]⟩ =
      some (.insert 0 0 0 0 32 0xFFFFFFFE 32 0x12340000 0xA94 0xFF 0) := by decide +kernel

theorem test_decode_insert_fields :
    decoded ⟨0x00070A0103020003, [0x3FF, 0, 0x2A5, 0, 0x00000A8000000004]⟩ =
      some (.insert 0 2 3 1 10 0x3FF 10 0x2A5 7 0x4 0x80) := by decide +kernel

theorem test_decode_evict :
    decoded ⟨0x0000000001010004, []⟩ =
      some (.evict 0 1 1) := by decide +kernel

theorem test_decode_stashWrite :
    decoded ⟨0x0000000001060005, [0xFFFFFFFF, 0, 0xCAFE0012, 0, 0x0000000001020300]⟩ =
      some (.stashWrite 6 1 0 0xFFFFFFFF 0xCAFE0012 0x300 2 true) := by decide +kernel

theorem test_decode_stashWrite_wide :
    decoded ⟨0x0000000001020005, [0x0000FFFFFFFFFFFF, 0xFFFFFFFF00000000, 0x9ABCDEADBEEF0001, 0xCAFEF00D12345678, 0x0000000001071234]⟩ =
      some (.stashWrite 2 1 0 0xFFFFFFFF000000000000FFFFFFFFFFFF 0xCAFEF00D123456789ABCDEADBEEF0001 0x1234 7 true) := by decide +kernel

theorem test_decode_swapVersion :
    decoded ⟨0x0000000100000006, []⟩ =
      some (.swapVersion 1) := by decide +kernel

theorem test_decode_setParityGroup :
    decoded ⟨0x0000000000040007, [0x0FFFFFFF00000001]⟩ =
      some (.setParityGroup 0 true .ram 0 0 0 4 0xFFFF 0x0FFF false) := by decide +kernel

theorem test_decode_setParityGroup_stash :
    decoded ⟨0x0000000000080107, [0x01FFFFFF02030007]⟩ =
      some (.setParityGroup 1 true .stash 0 3 2 8 0xFFFF 0x01FF true) := by decide +kernel

theorem test_decode_setMissDefault :
    decoded ⟨0x0000000000000408, [0xFFFFFFFF00000007, 0x0000000080000000]⟩ =
      some (.setMissDefault 4 0x7 0xFFFFFFFF 0x80000000) := by decide +kernel

theorem test_decode_setShiftcount :
    decoded ⟨0x000C000000000409, []⟩ =
      some (.setShiftcount 4 12) := by decide +kernel

theorem test_decode_lookup :
    decoded ⟨0x0000200000000010, [0x12340001, 0]⟩ =
      some (.lookup 32 0x12340001) := by decide +kernel

theorem test_decode_hash :
    decoded ⟨0x0000080000000111, [0xB4, 0]⟩ =
      some (.hash 1 8 0xB4) := by decide +kernel

theorem test_decode_map :
    decoded ⟨0x0000000000000212, [0x400000018000ABCD]⟩ =
      some (.map 2 0x400000018000ABCD) := by decide +kernel

theorem test_decode_wayLookup :
    decoded ⟨0x00000A0103020013, [0x2FF, 0]⟩ =
      some (.wayLookup 0 2 3 1 10 0x2FF) := by decide +kernel

theorem test_decode_probe :
    decoded ⟨0x0000800000020014, [0x7777DEADBEEF0001, 0xCAFEF00DFFFFFFFF]⟩ =
      some (.probe 2 128 0xCAFEF00DFFFFFFFF7777DEADBEEF0001) := by decide +kernel

theorem test_decode_pcheck :
    decoded ⟨0x0000000000000015, [0x12350000]⟩ =
      some (.pcheck 0 0x12350000) := by decide +kernel

theorem test_encode_lookup :
    encode (.lookup 32 0x12340001) = ⟨0x0000200000000010, [0x12340001, 0]⟩ := by decide +kernel

/-- The illegal frames of 95_test_vectors.md section 2.1. -/
theorem test_illegal_frames :
    rejected ⟨0, []⟩ = some .unknownOpcode ∧
    rejected ⟨0x0A, []⟩ = some .unknownOpcode ∧
    rejected ⟨0x0000000001010004, [0]⟩ = some .wrongWordCount ∧
    rejected ⟨0x0000000100000004, []⟩ = some .reservedNotZero ∧
    rejected ⟨0x0100000000000009, []⟩ = some .reservedNotZero := by decide +kernel

/-- A frame read from one number, bit 0 the least significant bit of `W0`; words above it are zero. -/
theorem test_decode_table_word :
    decodeTableWord 64 0x0000000001010004 = some (.evict 0 1 1) ∧
    decodeTableWord 64 0x0000080000000111 = some (.hash 1 8 0) ∧
    decodeTableWord 128 0x400000018000ABCD0000000000000212 = some (.map 2 0x400000018000ABCD) := by decide +kernel

/-- No two rows of the opcode table have one opcode. -/
theorem test_opcode_table_disjoint :
    opcodeTable.Pairwise fun x y => x.pattern &&& 0xFF ≠ y.pattern &&& 0xFF := by decide +kernel

/-- The text form of 30_encoding.md R92. -/
theorem test_text : Instr.text (.evict 0 1 2) = "EVICT w=0 r=1 b=2" := by decide +kernel

/-- The pseudo-commands of 30_encoding.md R93 and the default operands of R92. -/
theorem test_pseudo_commands :
    clearParityGroup 0 = .setParityGroup 0 false .ram 0 0 0 0 0 0 false ∧
    encode (clearParityGroup 0) = ⟨0x0000000000000007, [0]⟩ ∧
    hashIdentity 0 32 2 = [.setHashRow 0 0 32 1, .setHashRow 0 1 32 2] ∧
    Instr.insertText 0 0 0 32 0xFFFFFFFE 0x12340000 (vpn := 0xA94) =
      .insert 0 0 0 0 32 0xFFFFFFFE 32 0x12340000 0xA94 0xFF 0 := by decide +kernel

/-! ## One step of each command: results of 95_test_vectors.md, or worked from the cited rules by hand -/

/-- 40_hash.md R101. -/
theorem test_cfgWay :
    (after (.cfgWay 0 10 4 0 0 0 0 0 0 .v2) State.reset).wayCfgAt 0 =
      ⟨true, 10, 4, 0, 0, 0, 0, 0, 0, .v2⟩ := by decide +kernel

/-- 40_hash.md R101: a configured way is refused. -/
theorem test_cfgWay_twice :
    answer (after (.cfgWay 1 8 4 0 2 2 2 0 4 .v2) hasher) = some ⟨.configError, .empty⟩ := by decide +kernel

/-- 40_hash.md R103. -/
theorem test_setHashRow :
    (after (.setHashRow 1 3 8 0xA5) hasher).matrixAt 1 3 = 0xA5 := by decide +kernel

/-- Section 2.2: `i >= HW`. -/
theorem test_setHashRow_range :
    answer (after (.setHashRow 1 4 8 1) hasher) = some ⟨.configError, .empty⟩ := by decide +kernel

/-- Section 2.2. -/
theorem test_hash : answer (after (.hash 1 8 0xB4) hasher) = some ⟨.ok, .hash 0x3⟩ := by decide +kernel

/-- Section 2.2: bit 8 set. -/
theorem test_hash_over_wide :
    answer (after (.hash 1 8 0x1B4) hasher) = some ⟨.configError, .empty⟩ := by decide +kernel

/-- Section 2.3. -/
theorem test_map :
    answer (after (.map 1 0xE) hasher) = some ⟨.ok, .coord ⟨2, 3, 0xE⟩⟩ := by decide +kernel

/-- Section 2.3. -/
theorem test_map_over_wide :
    answer (after (.map 1 0x10) hasher) = some ⟨.configError, .empty⟩ := by decide +kernel

/-- 42_way.md R131. -/
theorem test_insert :
    (after (.insert 1 2 3 1 8 0xFF 8 0xA5 7 0x2 0x80) hasher).ramAt 1 2 3 =
      ⟨0xFF, 0xA5, 7, 0x2, 0x80, 1⟩ := by decide +kernel

/-- 42_way.md R131: an enable at or above `ceil(KW/4)`. -/
theorem test_insert_enables :
    answer (after (.insert 1 2 3 1 8 0xFF 8 0xA5 7 0x4 0) hasher) = some ⟨.configError, .empty⟩ := by decide +kernel

/-- 42_way.md R133. -/
theorem test_evict :
    (after (.evict 1 3 0) full).ramAt 1 3 0 = ⟨0xFF, 0xB4, 0x123, 0, 0, 0⟩ := by decide +kernel

/-- 42_way.md R133: `r >= NR`. -/
theorem test_evict_range :
    answer (after (.evict 1 8 0) full) = some ⟨.rangeError, .empty⟩ := by decide +kernel

/-- 42_way.md R134: a nibble that is not enabled is not compared. -/
theorem test_wayLookup_nibble :
    answer (after (.wayLookup 1 3 0 0 8 0xF4)
      (full.setRam 1 3 0 ⟨0xFF, 0xB4, 0x123, 0x1, 0, 0⟩)) = some ⟨.ok, .wayHit (some 0x123)⟩ := by decide +kernel

/-- 42_way.md R134: the other version. -/
theorem test_wayLookup_version :
    answer (after (.wayLookup 1 3 0 1 8 0xB4) full) = some ⟨.ok, .wayHit none⟩ := by decide +kernel

/-- Section 2.5. -/
theorem test_stashWrite :
    (after (.stashWrite 3 0 1 0xFF 0x42 0x1111 1 true) full).stashAt 3 0 =
      ⟨0xFF, 0x42, 0x1111, 1, true, 1⟩ := by decide +kernel

/-- 43_stash.md R151: `s >= NS`. -/
theorem test_stashWrite_range :
    answer (after (.stashWrite 3 4 0 0 0 0 0 true) full) = some ⟨.rangeError, .empty⟩ := by decide +kernel

/-- 43_stash.md R150: bit 8 is not masked. -/
theorem test_probe :
    answer (after (.probe 3 10 0x1B4) full) =
      some ⟨.ok, .stashHit (some ⟨3, 2, 3, 0x3333⟩)⟩ := by decide +kernel

/-- Section 2.5. -/
theorem test_probe_empty_row :
    answer (after (.probe 2 10 0xB4) full) = some ⟨.ok, .stashHit none⟩ := by decide +kernel

/-- 46_version.md R200. -/
theorem test_swapVersion : (after (.swapVersion 1) full).activeVersion = 1 := by decide +kernel

/-- 46_version.md R200. -/
theorem test_swapVersion_over_wide :
    answer (after (.swapVersion 2) full) = some ⟨.configError, .empty⟩ := by decide +kernel

/-- Section 2.6. -/
theorem test_setParityGroup :
    (after (.setParityGroup 1 true .stash 0 3 2 8 0xFFFF 0x01FF true) full).groupAt 1 =
      ⟨true, .stash, 0, 3, 2, 8, 0x01FFFFFF, true⟩ := by decide +kernel

/-- 44_parity.md R167. -/
theorem test_setParityGroup_clear :
    (after (clearParityGroup 0) full).groupAt 0 = ParityGroup.zero := by decide +kernel

/-- Section 2.6. -/
theorem test_pcheck :
    answer (after (.pcheck 1 0x01033332)
      (full.setGroup 1 ⟨true, .stash, 0, 3, 2, 8, 0x01FFFFFF, true⟩)) = some ⟨.parityError, .group 1⟩ := by decide +kernel

/-- Section 2.6: bit 31 is outside the mask. -/
theorem test_pcheck_outside :
    answer (after (.pcheck 1 0x81033333)
      (full.setGroup 1 ⟨true, .stash, 0, 3, 2, 8, 0x01FFFFFF, true⟩)) = some ⟨.ok, .empty⟩ := by decide +kernel

/-- 45_resolver.md R186. -/
theorem test_setMissDefault :
    (after (.setMissDefault 4 7 0xFFFFFFFF 0x80000000) full).missDef[4] =
      ⟨7, 0xFFFFFFFF, 0x80000000⟩ := by decide +kernel

/-- 45_resolver.md R187: entry `NW` is the stash's. -/
theorem test_setShiftcount : (after (.setShiftcount 4 12) full).shiftAt 4 = 12 := by decide +kernel

/-- 47_lookup.md R206, R212: way 1 hits, and the group on the slot's data fails. -/
theorem test_lookup :
    answer (after (.lookup 8 0xB4) full) =
        some ⟨.ok, .lookup (.hitWay ⟨1, 3, 0, 0x123⟩ 5) [0]⟩ ∧
      (after (.lookup 8 0xB4) full).events = [.parityError 0] := by decide +kernel

/-- 47_lookup.md R209: with the slot evicted the stash hits; its stale data still fails the group. -/
theorem test_lookup_stash :
    answer (after (.lookup 8 0xB4) (after (.evict 1 3 0) full)) =
      some ⟨.ok, .lookup (.hitStash ⟨3, 2, 3, 0x3333⟩ 0) [0]⟩ := by decide +kernel

/-- 44_parity.md R176. -/
theorem test_scrub :
    (stepped (sched [.scrub 0])).map State.events = some [.parityError 0] := by decide +kernel

/-- 44_parity.md R178, 10_state.md R35: bit 24 of image word 9 is the version's bit 0. -/
theorem test_corrupt :
    (stepped (sched [.corrupt (.ram 1 3 0) 9 24])).map (fun t => t.ramAt 1 3 0) =
      some ⟨0xFF, 0xB4, 0x123, 0x3, 0, 1⟩ := by decide +kernel

/-- The frame placed for the next step is the one that runs. -/
theorem test_withFetchWord :
    (stepped (State.reset.withFetchWord 64 0x0000000100000006)).map State.activeVersion = some 1 := by decide +kernel

/-! ## Witnesses: concrete states and operands that meet the hypotheses of the obligations -/

theorem witness_DecodeOfEncode :
    (Instr.cfgWay 255 255 255 255 255 255 255 255 255 .v1).wellFormed = true ∧
    (Instr.insert 0 255 0 255 255 0 0 0 0 0 0).wellFormed = true := by decide +kernel

theorem witness_EncodeOfDecode :
    decode ⟨0x0000000001010004, []⟩ = .ok (.evict 0 1 1) := by decide +kernel

theorem witness_IllegalFramesRefused :
    Frame.legal ⟨0x00000000FFFFFF04, []⟩ = true ∧ Frame.legal ⟨0x0000000100000004, []⟩ = false ∧
    (sched [.command ⟨0x0000000100000004, []⟩]).pending = .command ⟨0x0000000100000004, []⟩ :: [] := by
  decide +kernel

theorem witness_StepRunsDecodedCommand :
    (sched [.command ⟨0x0000000100000006, []⟩, .reset]).pending =
      .command ⟨0x0000000100000006, []⟩ :: [.reset] ∧
    decode ⟨0x0000000100000006, []⟩ = .ok (.swapVersion 1) := by decide +kernel

theorem witness_StoredBytesRoundTrip :
    (Frame.words ⟨1, [2, 3]⟩)[2]? = some 3 ∧ 7 < 8 := by decide +kernel

theorem witness_ErrorsWriteNothing_config :
    exec (.swapVersion 2) full = .next (after (.swapVersion 2) full) ∧
    (after (.swapVersion 2) full).responses = full.responses ++ [⟨.configError, .empty⟩] :=
  ⟨exec_after _ _, by decide +kernel⟩

theorem witness_ErrorsWriteNothing_range :
    exec (.evict 1 8 3) full = .next (after (.evict 1 8 3) full) ∧
    (after (.evict 1 8 3) full).responses = full.responses ++ [⟨.rangeError, .empty⟩] :=
  ⟨exec_after _ _, by decide +kernel⟩

theorem witness_ConfigErrorCauses :
    (sched [.command ⟨0x0000000200000006, []⟩]).pending = .command ⟨0x0000000200000006, []⟩ :: [] ∧
    decode ⟨0x0000000200000006, []⟩ = .ok (.swapVersion 2) ∧
    (sched [.command ⟨0x0000000200000006, []⟩]).ConfigCause (.swapVersion 2) ∧
    Frame.legal ⟨0, []⟩ = false := by
  simp only [State.ConfigCause]
  decide +kernel

theorem witness_RangeErrorCauses :
    (sched [.command ⟨0x0000000003080104, []⟩]).pending = .command ⟨0x0000000003080104, []⟩ :: [] ∧
    decode ⟨0x0000000003080104, []⟩ = .ok (.evict 1 8 3) ∧
    ¬ (sched [.command ⟨0x0000000003080104, []⟩]).ConfigCause (.evict 1 8 3) ∧
    (sched [.command ⟨0x0000000003080104, []⟩]).RangeCause (.evict 1 8 3) := by
  simp only [State.ConfigCause, State.RangeCause]
  decide +kernel

theorem witness_LookupClassWritesNothing :
    (Instr.lookup 8 0xB4).isConfiguration = false ∧
    exec (.lookup 8 0xB4) full = .next (after (.lookup 8 0xB4) full) ∧
    (Instr.hash 1 8 0xB4).isConfiguration = false ∧ (∀ kw key, Instr.hash 1 8 0xB4 ≠ .lookup kw key) :=
  ⟨rfl, exec_after _ _, rfl, fun _ _ h => by cases h⟩

/-- Each clause: a command that writes the state it is about. -/
theorem witness_WritersOfEachState :
    (∀ i, exec i full = .next (after i full)) ∧
    (after (.cfgWay 0 8 4 0 2 2 2 0 4 .v2) full).wayCfg ≠ full.wayCfg ∧
    (after (.setHashRow 1 0 8 1) full).matrix ≠ full.matrix ∧
    (after (.evict 1 3 0) full).ram ≠ full.ram ∧
    (after (.stashWrite 3 2 0 0 0 0 0 false) full).stash ≠ full.stash ∧
    (after (.swapVersion 1) full).activeVersion ≠ full.activeVersion ∧
    (after (.setParityGroup 0 false .ram 0 0 0 0 0 0 false) full).parityGroups ≠ full.parityGroups ∧
    (after (.setMissDefault 0 0 0 0) full).missDef ≠ full.missDef ∧
    (after (.setShiftcount 1 0) full).shiftCount ≠ full.shiftCount ∧
    (after (.lookup 8 0xB4) full).events ≠ full.events :=
  ⟨fun i => exec_after i _, by decide +kernel⟩

theorem witness_ConfigurationIdempotent :
    (Instr.evict 1 3 0).isConfiguration = true ∧
    exec (.evict 1 3 0) full = .next (after (.evict 1 3 0) full) ∧
    (Instr.cfgWay 0 8 4 0 2 2 2 0 4 .v2).isConfiguration = true ∧
    exec (.cfgWay 0 8 4 0 2 2 2 0 4 .v2) full = .next (after (.cfgWay 0 8 4 0 2 2 2 0 4 .v2) full) :=
  ⟨rfl, exec_after _ _, rfl, exec_after _ _⟩

theorem witness_OutputsAreNeverRead :
    exec (.lookup 8 0xB4) full = .next (after (.lookup 8 0xB4) full) := exec_after _ _

/-- A command, another agent's step, and nothing scheduled. -/
theorem witness_StepTakesOneInput :
    (∃ t, step (sched [.command ⟨0x6, []⟩]) = .next t) ∧ (∃ t, step (sched [.scrub 0]) = .next t) ∧
    (∃ t, step (sched []) = .next t) ∧
    (sched [.command ⟨0x6, []⟩]).pending.head? = some (.command ⟨0x6, []⟩) ∧
    (∀ f, (sched [.scrub 0]).pending.head? ≠ some (.command f)) :=
  ⟨⟨_, step_of_stepped (s := sched [.command ⟨0x6, []⟩]) (Option.some_get (by decide +kernel)).symm⟩,
    ⟨_, step_of_stepped (s := sched [.scrub 0]) (Option.some_get (by decide +kernel)).symm⟩,
    ⟨_, rfl⟩, rfl, fun _ h => by cases h⟩

theorem witness_ResetMeetsInvariants :
    Params.ref.wf ∧ Params.wf ⟨255, 256, 256, 256, 64, 8⟩ ∧ Params.wf ⟨1, 1, 1, 1, 0, 1⟩ := by
  decide +kernel

theorem witness_ResetStep : (sched [.reset, .scrub 0]).pending = .reset :: [.scrub 0] := rfl

theorem witness_WayConfigurationFixedForLife :
    ((sched [.scrub 0]).wayCfgAt 1).valid = true ∧ (sched [.scrub 0]).pending.head? ≠ some .reset ∧
    ∃ t, step (sched [.scrub 0]) = .next t :=
  ⟨by decide +kernel, by decide +kernel,
    ⟨_, step_of_stepped (s := sched [.scrub 0]) (Option.some_get (by decide +kernel)).symm⟩⟩

theorem witness_GroupsWrittenBySoftwareOnly :
    (sched [.command ⟨0x6, []⟩]).pending.head? ≠ some .reset ∧
    (∀ f i, (sched [.command ⟨0x6, []⟩]).pending.head? = some (.command f) → decode f = .ok i →
      i.opcode ≠ 0x07) ∧
    ∃ t, step (sched [.command ⟨0x6, []⟩]) = .next t := by
  refine ⟨by decide +kernel, ?_,
    ⟨_, step_of_stepped (s := sched [.command ⟨0x6, []⟩]) (Option.some_get (by decide +kernel)).symm⟩⟩
  intro f i hf hd
  cases hf
  have h : decode ⟨0x6, []⟩ = .ok (.swapVersion 0) := by decide +kernel
  rw [h] at hd
  cases hd
  decide +kernel

theorem witness_HashBitsAreSelectedXor : (full.wayCfgAt 1).hw ≤ 64 := by decide +kernel

/-- A fresh way, a zero row, and the identity matrix of a way with two key bits and one hash bit. -/
theorem witness_HashLaws :
    let t := (full.setWayCfg 0 ⟨true, 2, 1, 0, 0, 0, 0, 0, 0, .v2⟩).setMatrix 0 0 1
    exec (.cfgWay 0 8 4 0 2 2 2 0 4 .v2) full = .next (after (.cfgWay 0 8 4 0 2 2 2 0 4 .v2) full) ∧
    (after (.cfgWay 0 8 4 0 2 2 2 0 4 .v2) full).responses = full.responses ++ [⟨.ok, .empty⟩] ∧
    full.matrixAt 1 4 = 0 ∧ (t.wayCfgAt 0).hw ≤ (t.wayCfgAt 0).kw ∧ (t.wayCfgAt 0).hw ≤ 64 ∧
    (∀ j, j < (t.wayCfgAt 0).hw → t.matrixAt 0 j = BitVec.ofNat 128 (2 ^ j)) :=
  ⟨exec_after _ _, by decide +kernel⟩

/-- Every width at its least and at its greatest. -/
theorem witness_CfgWayCompletes :
    ¬ full.ConfigCause (.cfgWay 3 128 64 56 8 56 8 48 16 .v2) ∧
    ¬ full.ConfigCause (.cfgWay 0 1 1 1 0 1 0 1 0 .v2) := by
  simp only [State.ConfigCause]
  decide +kernel

theorem witness_SetHashRowCompletes : ¬ full.ConfigCause (.setHashRow 1 3 8 0xFF) := by
  simp only [State.ConfigCause]
  decide +kernel

theorem witness_HashCompletes :
    ¬ full.ConfigCause (.hash 1 8 0xFF) ∧ (full.wayCfgAt 1).hw ≤ 64 := by
  simp only [State.ConfigCause]
  decide +kernel

theorem witness_MapCompletes :
    ¬ full.ConfigCause (.map 1 0xF) ∧ ¬ full.RangeCause (.map 1 0xF) := by
  simp only [State.ConfigCause, State.RangeCause]
  decide +kernel

theorem witness_WayMatchCondition :
    RamEntry.Matches ⟨0xFF, 0xB4, 0x123, 0x3, 0, 0⟩ 0xB4 0 ∧
    ¬ RamEntry.Matches ⟨0xFF, 0xB4, 0x123, 0x3, 0, 0⟩ 0xB5 0 ∧
    ¬ RamEntry.Matches ⟨0xFF, 0xB4, 0x123, 0, 0, 0⟩ 0xB4 0 := by
  simp only [RamEntry.Matches]
  decide +kernel

theorem witness_InsertCompletes :
    ¬ full.ConfigCause (.insert 1 7 3 1 8 0xFF 8 0xFF 0xFFFF 0x3 0xFF) ∧
    ¬ full.RangeCause (.insert 1 7 3 1 8 0xFF 8 0xFF 0xFFFF 0x3 0xFF) := by
  simp only [State.ConfigCause, State.RangeCause]
  decide +kernel

theorem witness_EvictCompletes :
    ¬ full.ConfigCause (.evict 1 7 3) ∧ ¬ full.RangeCause (.evict 1 7 3) := by
  simp only [State.ConfigCause, State.RangeCause]
  decide +kernel

/-- A slot that hits and one that misses. -/
theorem witness_WayLookupCompletes :
    ¬ full.ConfigCause (.wayLookup 1 3 0 0 8 0xB4) ∧ ¬ full.RangeCause (.wayLookup 1 3 0 0 8 0xB4) ∧
    (full.ramAt 1 3 0).Matches 0xB4 0 ∧
    ¬ full.ConfigCause (.wayLookup 1 7 3 1 8 0xB4) ∧ ¬ full.RangeCause (.wayLookup 1 7 3 1 8 0xB4) ∧
    ¬ (full.ramAt 1 7 3).Matches 0xB4 1 := by
  simp only [State.ConfigCause, State.RangeCause, RamEntry.Matches]
  decide +kernel

theorem witness_InsertThenLookupRoundTrip :
    exec (.insert 1 3 0 0 8 0xF0 8 0xA0 7 0x2 0) full =
      .next (after (.insert 1 3 0 0 8 0xF0 8 0xA0 7 0x2 0) full) ∧
    (after (.insert 1 3 0 0 8 0xF0 8 0xA0 7 0x2 0) full).responses = full.responses ++ [⟨.ok, .empty⟩] ∧
    (0x2 : BitVec 32) ≠ 0 ∧
    (∀ j, j < 128 → (0xF0 : Wide).getLsbD j = true → (0x2 : BitVec 32).getLsbD (j / 4) = true) ∧
    ¬ OverWide (0xA5 : Wide) 8 :=
  ⟨exec_after _ _, by decide +kernel⟩

theorem witness_VersionIsolation :
    (0 : Version) ≠ 1 ∧
    (after (.insert 1 3 0 0 8 0xFF 8 0xB4 1 3 0) full).responses = full.responses ++ [⟨.ok, .empty⟩] ∧
    exec (.insert 1 3 0 1 8 0xFF 8 0xB5 2 3 0) (after (.insert 1 3 0 0 8 0xFF 8 0xB4 1 3 0) full) =
      .next (after (.insert 1 3 0 1 8 0xFF 8 0xB5 2 3 0)
        (after (.insert 1 3 0 0 8 0xFF 8 0xB4 1 3 0) full)) ∧
    (after (.insert 1 3 0 1 8 0xFF 8 0xB5 2 3 0)
        (after (.insert 1 3 0 0 8 0xFF 8 0xB4 1 3 0) full)).responses =
      (after (.insert 1 3 0 0 8 0xFF 8 0xB4 1 3 0) full).responses ++ [⟨.ok, .empty⟩] ∧
    ¬ OverWide (0xB4 : Wide) 8 :=
  ⟨by decide +kernel, by decide +kernel, exec_after _ _, by decide +kernel⟩

theorem witness_EvictedSlotMisses :
    exec (.evict 1 3 0) full = .next (after (.evict 1 3 0) full) ∧
    (after (.evict 1 3 0) full).responses = full.responses ++ [⟨.ok, .empty⟩] :=
  ⟨exec_after _ _, by decide +kernel⟩

/-- With the slot next to the evicted one still hitting for its own key, the second clause says something. -/
theorem witness_EvictedSlotMisses_other_slot :
    (after (.evict 1 2 0) full).wayHit 0xB4 0 1 = some ⟨1, 3, 0, 0x123⟩ := by decide +kernel

theorem witness_StashWriteCompletes :
    ¬ full.ConfigCause (.stashWrite 7 3 1 0 0 0 0 true) ∧
    ¬ full.RangeCause (.stashWrite 7 3 1 0 0 0 0 true) := by
  simp only [State.ConfigCause, State.RangeCause]
  decide +kernel

theorem witness_ProbeLowestMatchingSlot :
    2 < full.params.ns ∧ (full.stashAt 3 2).Matches 0xB4 0 ∧
    (∀ c', c' < 2 → ¬ (full.stashAt 3 c').Matches 0xB4 0) ∧
    (∀ c, c < full.params.ns → ¬ (full.stashAt 3 c).Matches 0xB5 0) := by
  simp only [StashEntry.Matches]
  decide +kernel

/-- The greatest row with the least and the greatest width. -/
theorem witness_ProbeCompletes :
    ¬ full.ConfigCause (.probe 7 1 1) ∧ ¬ full.RangeCause (.probe 7 1 1) ∧
    ¬ full.ConfigCause (.probe 0 128 (BitVec.allOnes 128)) ∧
    ¬ full.RangeCause (.probe 0 128 (BitVec.allOnes 128)) := by
  simp only [State.ConfigCause, State.RangeCause]
  decide +kernel

theorem witness_SwapVersionCompletes :
    (1 : Version).toNat < 2 ^ full.params.vw ∧ (0 : Version).toNat < 2 ^ full.params.vw := by
  decide +kernel

theorem witness_HitsAreOfTheActiveVersion :
    exec (.lookup 8 0xB4) full = .next (after (.lookup 8 0xB4) full) ∧
    (after (.lookup 8 0xB4) full).responses =
      full.responses ++ [⟨.ok, .lookup (.hitWay ⟨1, 3, 0, 0x123⟩ 5) [0]⟩] ∧
    exec (.lookup 8 0xB4) (after (.evict 1 3 0) full) =
      .next (after (.lookup 8 0xB4) (after (.evict 1 3 0) full)) ∧
    (after (.lookup 8 0xB4) (after (.evict 1 3 0) full)).responses =
      (after (.evict 1 3 0) full).responses ++
        [⟨.ok, .lookup (.hitStash ⟨3, 2, 3, 0x3333⟩ 0) [0]⟩] :=
  ⟨exec_after _ _, by decide +kernel, exec_after _ _, by decide +kernel⟩

/-- A slot that is not enabled, and one that holds the other version. -/
theorem witness_MakeBeforeBreak :
    (∀ i, exec i full = .next (after i full)) ∧
    ((1 : Version) ≠ full.activeVersion ∧ (full.ramAt 1 3 1).ne = 0) ∧
    (full.stashAt 3 0).ben = false ∧
    (∀ i, exec i (after (.insert 1 3 1 1 8 0xFF 8 0xB4 1 3 0) full) =
      .next (after i (after (.insert 1 3 1 1 8 0xFF 8 0xB4 1 3 0) full))) ∧
    ((after (.insert 1 3 1 1 8 0xFF 8 0xB4 1 3 0) full).ramAt 1 3 1).ver ≠
      (after (.insert 1 3 1 1 8 0xFF 8 0xB4 1 3 0) full).activeVersion ∧
    (after (.lookup 8 0xB4) full).responses =
      full.responses ++ [⟨.ok, .lookup (.hitWay ⟨1, 3, 0, 0x123⟩ 5) [0]⟩] :=
  ⟨fun i => exec_after i _, by decide +kernel, by decide +kernel, fun i => exec_after i _,
    by decide +kernel, by decide +kernel⟩

/-- A group on a way slot, a group on a stash slot, and a cleared group. -/
theorem witness_SetParityGroupCompletes :
    ¬ full.ConfigCause (.setParityGroup 7 true .ram 3 7 3 9 0 0 true) ∧
    ¬ full.RangeCause (.setParityGroup 7 true .ram 3 7 3 9 0 0 true) ∧
    ¬ full.ConfigCause (.setParityGroup 0 true .stash 0 7 3 0 0 0 false) ∧
    ¬ full.RangeCause (.setParityGroup 0 true .stash 0 7 3 0 0 0 false) ∧
    ¬ full.ConfigCause (.setParityGroup 7 false .stash 255 255 255 255 0 0 false) ∧
    ¬ full.RangeCause (.setParityGroup 7 false .stash 255 255 255 255 0 0 false) := by
  simp only [State.ConfigCause, State.RangeCause]
  decide +kernel

theorem witness_PcheckCompletes :
    0 < full.params.npg ∧ (full.groupAt 0).valid = true ∧
    ones ((0x100000001 : BitVec 32) &&& (full.groupAt 0).mask) % 2 = (full.groupAt 0).expected.toNat ∧
    ones ((0x3 : BitVec 32) &&& (full.groupAt 0).mask) % 2 ≠ (full.groupAt 0).expected.toNat := by
  decide +kernel

/-- The mask's last bit inside and the first outside, an even flip, and an empty mask. -/
theorem witness_CheckLaws :
    (full.groupAt 0).mask.getLsbD 7 = true ∧ (full.groupAt 0).mask.getLsbD 8 = false ∧
    ones ((0x103 : BitVec 32) &&& (full.groupAt 0).mask) % 2 = 0 ∧ (full.groupAt 1).mask = 0 := by
  decide +kernel

theorem witness_ParityNeverChangesResolution :
    exec (.lookup 8 0xB4) full = .next (after (.lookup 8 0xB4) full) ∧
    (after (.lookup 8 0xB4) full).responses =
      full.responses ++ [⟨.ok, .lookup (.hitWay ⟨1, 3, 0, 0x123⟩ 5) [0]⟩] :=
  ⟨exec_after _ _, by decide +kernel⟩

/-- A group that fails, one that passes, one that is not valid, and the first index that is no group. -/
theorem witness_ScrubberStep :
    (sched [.scrub 0]).pending = .scrub 0 :: [] ∧ 0 < full.params.npg ∧
    (full.groupAt 0).valid = true ∧
    ones (full.imageAt (full.groupAt 0).slot (full.groupAt 0).wsel &&& (full.groupAt 0).mask) % 2 ≠
      (full.groupAt 0).expected.toNat ∧
    ones (full.imageAt (.ram 1 3 0) 4 &&& 0x7F) % 2 ≠ ones (full.imageAt (.ram 1 3 0) 4 &&& 0xFF) % 2 ∧
    (full.groupAt 7).valid = false ∧ full.params.npg ≤ 8 := by decide +kernel

theorem witness_ScrubberChangesNoResponse :
    scrubStep 0 full = .next (full.report [0]) ∧
    exec (.lookup 8 0xB4) full = .next (after (.lookup 8 0xB4) full) := by
  refine ⟨?_, exec_after _ _⟩
  rw [scrubStep, if_pos (by decide +kernel), if_pos (by decide +kernel)]

/-- The last backed bit of the last image word of a way slot, the bit above it, and a slot that is none. -/
theorem witness_CorruptFlipsOneBit_ram :
    full.params.wf ∧
    (sched [.corrupt (.ram 3 7 3) 9 24]).pending = .corrupt (.ram 3 7 3) 9 24 :: [] ∧
    full.Backed (.ram 3 7 3) 9 24 ∧ ¬ full.Backed (.ram 3 7 3) 9 25 ∧ ¬ full.Backed (.ram 4 7 3) 0 0 := by
  refine ⟨by decide +kernel, rfl, ?_, ?_, ?_⟩ <;> unfold State.Backed <;> decide +kernel

/-- The same of a stash slot, whose image words 8 and 9 are backed in part. -/
theorem witness_CorruptFlipsOneBit_stash :
    full.Backed (.stash 7 3) 8 24 ∧ ¬ full.Backed (.stash 7 3) 8 25 ∧ full.Backed (.stash 7 3) 9 0 ∧
    ¬ full.Backed (.stash 7 3) 9 1 ∧ ¬ full.Backed (.stash 7 4) 0 0 := by
  refine ⟨?_, ?_, ?_, ?_, ?_⟩ <;> unfold State.Backed <;> decide +kernel

theorem witness_SetMissDefaultCompletes : 4 ≤ 4 ∧ 0 ≤ 4 := by decide +kernel

theorem witness_SetShiftcountCompletes : 4 ≤ full.params.nw ∧ 0 ≤ full.params.nw := by decide +kernel

/-- A list with two hits, one with none, and a way that is not configured. -/
theorem witness_ResolvePriority :
    (∀ w (h : WayHit), ([none, some ⟨1, 3, 0, 0x123⟩, some ⟨2, 3, 0, 0x124⟩] :
      List (Option WayHit))[w]? = some (some h) → h.way = w) ∧
    (∀ w', w' < 1 → ([none, some ⟨1, 3, 0, 0x123⟩, some ⟨2, 3, 0, 0x124⟩] :
      List (Option WayHit))[w']? = some none) ∧
    (∀ h ∈ ([none, none] : List (Option WayHit)), h = none) ∧ full.configured 0 = false := by
  refine ⟨?_, by decide +kernel, by decide +kernel, by decide +kernel⟩
  intro w h hw
  rcases w with _ | _ | _ | w <;> simp at hw <;> rw [← hw]

theorem witness_LookupCompletes :
    ¬ full.ConfigCause (.lookup 8 0xB4) ∧ ¬ full.RangeCause (.lookup 8 0xB4) := by
  simp only [State.ConfigCause, State.RangeCause]
  decide +kernel

/-- The three clauses: a way that hits, a stash row that hits when no way does, and a miss. -/
theorem witness_LookupPicksHighestPriorityHit :
    (∀ i s, exec i s = .next (after i s)) ∧
    (after (.lookup 8 0xB4) full).responses =
      full.responses ++ [⟨.ok, .lookup (.hitWay ⟨1, 3, 0, 0x123⟩ 5) [0]⟩] ∧
    (after (.lookup 8 0xB4) (after (.evict 1 3 0) full)).responses =
      (after (.evict 1 3 0) full).responses ++
        [⟨.ok, .lookup (.hitStash ⟨3, 2, 3, 0x3333⟩ 0) [0]⟩] ∧
    (after (.evict 1 3 0) full).probeFn ((after (.evict 1 3 0) full).coordOf 0xB4 1).row 0xB4 0 =
      some ⟨3, 2, 3, 0x3333⟩ ∧
    (after (.lookup 8 0) full).responses = full.responses ++ [⟨.ok, .lookup (.miss full.missDef) []⟩] :=
  ⟨exec_after, by decide +kernel⟩

theorem witness_NoConfiguredWayMisses :
    (∀ w, State.reset.configured w = false) ∧ 1 ≤ 128 ∧ 128 ≤ 128 ∧
    ¬ OverWide (BitVec.allOnes 128 : Wide) 128 ∧ ¬ OverWide (1 : Wide) 1 :=
  ⟨fun w => by simp [State.configured, State.wayCfgAt, State.reset, State.resetFor, WayCfg.zero],
    by decide +kernel⟩

/-- Another way and other slots of this way differ. -/
theorem witness_WaysAreIndependent :
    let t := (full.setRam 0 3 0 ⟨0xFF, 0xB4, 9, 3, 0, 0⟩).setRam 1 2 0 ⟨0xFF, 0xB4, 9, 3, 0, 0⟩
    full.params.nw = t.params.nw ∧ full.wayCfgAt 1 = t.wayCfgAt 1 ∧
    (∀ i, full.matrixAt 1 i = t.matrixAt 1 i) ∧
    full.ramAt 1 (full.coordOf 0xB4 1).row (full.coordOf 0xB4 1).bank =
      t.ramAt 1 (full.coordOf 0xB4 1).row (full.coordOf 0xB4 1).bank ∧ full ≠ t :=
  ⟨rfl, rfl, fun _ => rfl, by decide +kernel, by decide +kernel⟩

/-! ### A state that meets the invariants -/

/-- Every array of `reset` reads zero. -/
theorem reset_reads :
    (∀ w, State.reset.wayCfgAt w = WayCfg.zero) ∧ (∀ w i, State.reset.matrixAt w i = 0) ∧
    (∀ w r b, State.reset.ramAt w r b = RamEntry.zero) ∧
    (∀ r c, State.reset.stashAt r c = StashEntry.zero) ∧
    (∀ g, State.reset.groupAt g = ParityGroup.zero) ∧ ∀ i, State.reset.shiftAt i = 0 :=
  ⟨fun _ => rfl, fun _ _ => rfl, fun _ _ _ => rfl, fun _ _ => rfl, fun _ => rfl, fun _ => rfl⟩

theorem witness_StepKeepsInvariant : full.Inv := by
  obtain ⟨h1, h2, h3, h4, h5, h6⟩ := reset_reads
  have params : full.params = Params.ref := rfl
  have wayCfg : ∀ w, full.wayCfgAt w = if w = 1 then ⟨true, 8, 4, 0, 2, 2, 2, 0, 4, .v2⟩ else WayCfg.zero :=
    fun w => by simp [full, hasher, h1]
  have configured : ∀ w, full.configured w = decide (w = 1) := fun w => by
    rw [State.configured, wayCfg, params]
    by_cases e : w = 1
    · subst e
      rfl
    · simp [e, WayCfg.zero]
  refine ⟨by decide +kernel, ⟨?_, ?_, ?_, ?_, ?_, ?_⟩, ?_, ?_, ?_, ?_, by decide +kernel, ?_, ?_⟩
  case refine_1 | refine_2 | refine_3 | refine_4 | refine_5 | refine_6 => decide +kernel
  case refine_7 =>
    intro w
    rw [configured, wayCfg]
    by_cases e : w = 1
    · simp only [e, decide_true, if_true]
      exact ⟨by decide, by decide, by decide, by decide, by decide, rfl⟩
    · simp [e]
  case refine_8 =>
    intro w i hne
    rw [configured, wayCfg]
    have hm : full.matrixAt w i = if w = 1 ∧ i = 3 then 0xFF else if w = 1 ∧ i = 2 then 0xAA else
        if w = 1 ∧ i = 1 then 0xF0 else if w = 1 ∧ i = 0 then 0x0F else 0 := by
      simp [full, hasher, h2]
    rw [hm] at hne ⊢
    split at hne
    · simp [*]
    split at hne
    · simp [*]
    split at hne
    · simp [*]
    split at hne
    · simp [*]
    · exact absurd rfl hne
  case refine_9 =>
    intro w r b hne
    have hr : full.ramAt w r b =
        if w = 1 ∧ r = 3 ∧ b = 0 then ⟨0xFF, 0xB4, 0x123, 0x3, 0, 0⟩ else RamEntry.zero := by
      simp [full, hasher, h3]
    rw [hr] at hne ⊢
    split at hne
    · simp [*, Params.ref]
    · exact absurd rfl hne
  case refine_10 =>
    intro r c hne
    have hr : full.stashAt r c =
        if r = 3 ∧ c = 2 then ⟨0xFF, 0xB4, 0x3333, 3, true, 0⟩ else StashEntry.zero := by
      simp [full, hasher, h4]
    rw [hr] at hne ⊢
    split at hne
    · simp [*, Params.ref]
    · exact absurd rfl hne
  case refine_11 =>
    intro g
    have hg : full.groupAt g = if g = 0 then ⟨true, .ram, 1, 3, 0, 4, 0xFF, true⟩ else ParityGroup.zero := by
      simp [full, hasher, h5]
    rw [hg]
    split
    · simp [*, ParityGroup.Legal, Params.ref]
    · simp [ParityGroup.Legal, ParityGroup.zero]
  case refine_12 =>
    intro i hne
    have hs : full.shiftAt i = if i = 1 then 5 else 0 := by simp [full, hasher, h6]
    rw [hs] at hne
    split at hne
    · simp [*, Params.ref]
    · exact absurd rfl hne

/-- The step of the witness: a scrubber step on the group that fails. -/
theorem witness_StepKeepsInvariant_step :
    (sched [.scrub 0]).Inv ∧ ∃ t, step (sched [.scrub 0]) = .next t :=
  ⟨State.Inv.of_engine (s := full) rfl witness_StepKeepsInvariant,
    ⟨_, step_of_stepped (s := sched [.scrub 0]) (Option.some_get (by decide +kernel)).symm⟩⟩

theorem witness_StepKeepsEntriesConfined :
    (sched [.scrub 0]).EntriesConfined ∧ ¬ (sched [.scrub 0]).corruptsNext := by
  obtain ⟨h1, h2, h3, h4, h5, h6⟩ := reset_reads
  refine ⟨?_, ?_⟩
  · intro w r b
    have hw : (sched [.scrub 0]).wayCfgAt w =
        if w = 1 then ⟨true, 8, 4, 0, 2, 2, 2, 0, 4, .v2⟩ else WayCfg.zero := by
      show full.wayCfgAt w = _
      simp [full, hasher, h1]
    have hr : (sched [.scrub 0]).ramAt w r b =
        if w = 1 ∧ r = 3 ∧ b = 0 then ⟨0xFF, 0xB4, 0x123, 0x3, 0, 0⟩ else RamEntry.zero := by
      show full.ramAt w r b = _
      simp [full, hasher, h3]
    rw [State.configured, hw, hr]
    by_cases e : w = 1
    · subst e
      simp only [if_true, true_and]
      split <;> split <;> first | decide +kernel | (rename_i h _; exact absurd rfl h)
    · simp [e, WayCfg.zero]
  · rintro ⟨slot, wsel, bit, h⟩
    cases h

end Sys2Proof.Tests
end

section
/-! SUPPORT. Every command answers once: the two error answers of a check, and the one answer of each
effect. -/

namespace Sys2Proof.Machine

/-! ## What stands around a command -/

/-- `u` has the parameters, the schedule, the index and the response stream of `s`: a command that went
from `s` to `u` has written engine state and events at most, and has not answered yet. -/
def State.SameHarness (s u : State) : Prop :=
  u.params = s.params ∧ u.pending = s.pending ∧ u.position = s.position ∧ u.responses = s.responses

/-- The outcome `o` is a next state that holds one response more than `s`, of a payload shape of `i`
(00_scope.md R14, 30_encoding.md R94), and keeps the parameters, the schedule and the index of `s`. -/
def AnswersOnce (i : Instr) (s : State) (o : Result) : Prop :=
  ∃ t r, o = .next t ∧ t.responses = s.responses ++ [r] ∧ PayloadFits i r ∧
    t.params = s.params ∧ t.pending = s.pending ∧ t.position = s.position

theorem State.sameHarness_refl (s : State) : s.SameHarness s := ⟨rfl, rfl, rfl, rfl⟩

/-! ## The ways a command can end -/

/-- A command that has not answered answers once by appending a response of its payload shape. -/
theorem answersOnce_respond {i : Instr} {s u : State} {r : Response} (hu : s.SameHarness u)
    (hr : PayloadFits i r) : AnswersOnce i s (.next (u.respond r)) := by
  obtain ⟨hparams, hpending, hposition, hresponses⟩ := hu
  exact ⟨u.respond r, r, rfl, by simp [hresponses], hr, hparams, hpending, hposition⟩

theorem answersOnce_configError (i : Instr) (s : State) :
    AnswersOnce i s (.next (s.respond ⟨.configError, .empty⟩)) :=
  answersOnce_respond s.sameHarness_refl rfl

theorem answersOnce_rangeError (i : Instr) (s : State) :
    AnswersOnce i s (.next (s.respond ⟨.rangeError, .empty⟩)) :=
  answersOnce_respond s.sameHarness_refl rfl

theorem answersOnce_complete {i : Instr} {s u : State} {p : Payload} (hu : s.SameHarness u)
    (hp : PayloadFits i ⟨.ok, p⟩) : AnswersOnce i s (complete p u) :=
  answersOnce_respond hu hp

/-! ## Every command -/

/-- The effect of a configuration command completes with an empty payload. That of a lookup command
completes with its result; only `PCHECK` can answer `PARITY_ERROR` (44_parity.md R169). -/
theorem effect_answersOnce (i : Instr) (s : State) : AnswersOnce i s (effect i s) := by
  cases i with
  | cfgWay | setHashRow | insert | evict | stashWrite | swapVersion | setParityGroup
  | setMissDefault | setShiftcount =>
    exact answersOnce_complete (by simp [State.SameHarness]) rfl
  | lookup => exact answersOnce_complete (by simp [State.SameHarness]) ⟨_, _, rfl⟩
  | hash | map | wayLookup | probe => exact answersOnce_complete s.sameHarness_refl ⟨_, rfl⟩
  | pcheck group bits =>
    simp only [effect]
    split
    · exact answersOnce_complete s.sameHarness_refl rfl
    · exact answersOnce_respond s.sameHarness_refl ⟨group, bits, rfl, rfl⟩

/-- Settles O7: a command ends in one of the two error answers or in its effect (60_exceptions.md R226),
and each of these answers once. -/
theorem everyCommandAnswersOnce : Obligations.EveryCommandAnswersOnce := by
  intro i s
  show AnswersOnce i s (exec i s)
  rcases exec_cases i s with ⟨-, h⟩ | ⟨-, -, h⟩ | ⟨-, -, h⟩ <;> rw [h]
  · exact answersOnce_configError i s
  · exact answersOnce_rangeError i s
  · exact effect_answersOnce i s

end Sys2Proof.Machine
end

section
/-! SUPPORT. What one command and one step can do to the engine: an effect is a write, a report and one
answer, none of which reads an output, and every invariant of the engine is kept when three kinds of change
keep it. -/

namespace Sys2Proof.Machine

/-! ## The three parts of an effect -/

/-- The engine write of a command that meets no error condition; the lookup commands write nothing. -/
def written (i : Instr) (s : State) : State :=
  match i with
  | .cfgWay way kw hw rowLo rowW bankLo bankW vpnLo vpnW _ =>
      (s.setWayCfg way ⟨true, kw, hw, rowLo, rowW, bankLo, bankW, vpnLo, vpnW, .v2⟩).clearMatrix way
  | .setHashRow way row _ sel => s.setMatrix way row sel
  | .insert way row bank ver _ mask _ data vpn ne ctl => s.setRam way row bank ⟨mask, data, vpn, ne, ctl, ver⟩
  | .evict way row bank => s.setRam way row bank { s.ramAt way row bank with ne := 0 }
  | .stashWrite row slot ver mm md idc rbs ben => s.setStash row slot ⟨mm, md, idc, rbs, ben, ver⟩
  | .swapVersion ver => s.setActiveVersion ver
  | .setParityGroup group valid kind way row col wsel maskLo maskHi expected =>
      s.setGroup group
        (if valid then ⟨true, kind, way, row, col, wsel, maskHi ++ maskLo, expected⟩ else ParityGroup.zero)
  | .setMissDefault kind missValue mask dflt => s.setMissDef kind ⟨missValue, mask, dflt⟩
  | .setShiftcount index count => s.setShift index count
  | .lookup .. | .hash .. | .map .. | .wayLookup .. | .probe .. | .pcheck .. => s

/-- The groups a command reports on the event stream: `LOOKUP` reports the failing groups of its read set
(47_lookup.md R212), no other command reports. -/
def reported (i : Instr) (s : State) : List Nat :=
  match i with
  | .lookup _ key => s.parityFailures (s.readSet key s.activeVersion)
  | _ => []

/-- The response of a command that meets no error condition. -/
def reply (i : Instr) (s : State) : Response :=
  match i with
  | .lookup _ key =>
      ⟨.ok, .lookup (s.resolution key s.activeVersion) (s.parityFailures (s.readSet key s.activeVersion))⟩
  | .hash way _ key => ⟨.ok, .hash (s.hashFn way key)⟩
  | .map way hash => ⟨.ok, .coord ((s.wayCfgAt way).coord hash)⟩
  | .wayLookup way row bank ver _ key => ⟨.ok, .wayHit (wayMatch (s.ramAt way row bank) key ver)⟩
  | .probe row _ key => ⟨.ok, .stashHit (s.probeFn row key s.activeVersion)⟩
  | .pcheck group bits =>
      if checkOk (s.groupAt group) bits then ⟨.ok, .empty⟩ else ⟨.parityError, .group group⟩
  | _ => ⟨.ok, .empty⟩

@[simp] theorem State.report_nil (s : State) : s.report [] = s := by simp [State.report]

theorem effect_eq (i : Instr) (s : State) :
    effect i s = .next (((written i s).report (reported i s)).respond (reply i s)) := by
  cases i with
  | lookup => rfl
  | pcheck group bits =>
    simp only [effect, written, reported, reply, State.report_nil]
    split <;> rfl
  | _ => simp [effect, written, reported, reply, complete]

theorem exec_configError {i : Instr} {s : State} (hc : s.ConfigCause i) :
    exec i s = .next (s.respond ⟨.configError, .empty⟩) := by
  rcases exec_cases i s with ⟨-, h⟩ | ⟨hn, -⟩ | ⟨hn, -⟩
  · exact h
  · exact absurd hc hn
  · exact absurd hc hn

theorem exec_rangeError {i : Instr} {s : State} (hc : ¬ s.ConfigCause i) (hr : s.RangeCause i) :
    exec i s = .next (s.respond ⟨.rangeError, .empty⟩) := by
  rcases exec_cases i s with ⟨h, -⟩ | ⟨-, -, h⟩ | ⟨-, hn, -⟩
  · exact absurd h hc
  · exact h
  · exact absurd hr hn

/-- All a command can do: it answers an error, or it writes, reports and answers. -/
theorem exec_next {i : Instr} {s t : State} (h : exec i s = .next t) :
    (∃ status, t = s.respond ⟨status, .empty⟩) ∨
    (¬ s.ConfigCause i ∧ ¬ s.RangeCause i ∧
      t = ((written i s).report (reported i s)).respond (reply i s)) := by
  rcases exec_cases i s with ⟨-, he⟩ | ⟨-, -, he⟩ | ⟨hc, hr, he⟩ <;> rw [he] at h
  · exact .inl ⟨.configError, (Host.Outcome.next.inj h).symm⟩
  · exact .inl ⟨.rangeError, (Host.Outcome.next.inj h).symm⟩
  · rw [effect_eq] at h
    exact .inr ⟨hc, hr, (Host.Outcome.next.inj h).symm⟩

/-! ## Other outputs, schedule and index -/

/-- The engine of `s` with other streams, another schedule and another index around it. -/
def State.withOutputs (s : State) (rs : List Response) (es : List Event) (ins : List Input) (n : Nat) :
    State :=
  { s with responses := rs, events := es, pending := ins, position := n }

section
variable (i : Instr) (s : State) (rs : List Response) (es : List Event) (ins : List Input) (n : Nat)

theorem configCause_withOutputs : (s.withOutputs rs es ins n).ConfigCause i ↔ s.ConfigCause i := by
  cases i <;> exact Iff.rfl

theorem rangeCause_withOutputs : (s.withOutputs rs es ins n).RangeCause i ↔ s.RangeCause i := by
  cases i <;> exact Iff.rfl

theorem setWayCfg_withOutputs (w : Nat) (c : WayCfg) :
    (s.withOutputs rs es ins n).setWayCfg w c = (s.setWayCfg w c).withOutputs rs es ins n := rfl

theorem clearMatrix_withOutputs (w : Nat) :
    (s.withOutputs rs es ins n).clearMatrix w = (s.clearMatrix w).withOutputs rs es ins n :=
  List.foldl_hom (State.withOutputs · rs es ins n) fun _ _ => rfl

theorem written_withOutputs :
    written i (s.withOutputs rs es ins n) = (written i s).withOutputs rs es ins n := by
  cases i with
  | cfgWay => simp only [written, setWayCfg_withOutputs, clearMatrix_withOutputs]
  | _ => rfl

theorem reported_withOutputs : reported i (s.withOutputs rs es ins n) = reported i s := by
  cases i <;> rfl

theorem reply_withOutputs : reply i (s.withOutputs rs es ins n) = reply i s := by
  cases i <;> rfl

@[simp] theorem withOutputs_engine : (s.withOutputs rs es ins n).engine = s.engine := rfl

end

/-- The write of a command reads no output, and writes none. -/
theorem written_outputs (i : Instr) (s : State) :
    (written i s).responses = s.responses ∧ (written i s).events = s.events := by
  have h : written i s = (written i s).withOutputs s.responses s.events s.pending s.position :=
    written_withOutputs i s s.responses s.events s.pending s.position
  rw [h]
  exact ⟨rfl, rfl⟩

/-! ## One step -/

theorem step_idle {s : State} (h : s.pending = []) : step s = .next s := by simp [step, h]

theorem step_command {s : State} {f : Frame} {rest : List Input} {i : Instr}
    (h : s.pending = .command f :: rest) (hd : decode f = .ok i) : step s = exec i s.takeCommand := by
  simp [step, h, hd]

theorem step_illegal {s : State} {f : Frame} {rest : List Input} {e : IllegalFrame}
    (h : s.pending = .command f :: rest) (hd : decode f = .error e) :
    step s = .next (s.takeCommand.respond ⟨.configError, .empty⟩) := by
  simp [step, h, hd, refuseFrame, raise]

theorem step_scrub {s : State} {g : Nat} {rest : List Input} (h : s.pending = .scrub g :: rest) :
    step s = scrubStep g s.advance := by simp [step, h]

theorem step_corrupt {s : State} {slot : SlotRef} {wsel bit : Nat} {rest : List Input}
    (h : s.pending = .corrupt slot wsel bit :: rest) : step s = corruptStep slot wsel bit s.advance := by
  simp [step, h]

theorem step_reset {s : State} {rest : List Input} (h : s.pending = .reset :: rest) :
    step s = resetStep s.advance := by simp [step, h]

theorem scrubStep_next {g : Nat} {s t : State} (h : scrubStep g s = .next t) :
    ∃ groups, t = s.report groups := by
  unfold scrubStep at h
  split at h
  · cases h
    split
    · exact ⟨[g], rfl⟩
    · exact ⟨[], s.report_nil.symm⟩
  · cases h

theorem corruptStep_next {slot : SlotRef} {wsel bit : Nat} {s t : State}
    (h : corruptStep slot wsel bit s = .next t) :
    s.corruptible slot wsel bit = true ∧ t = s.flipBit slot wsel bit := by
  unfold corruptStep at h
  split at h
  · exact ⟨‹_›, (Host.Outcome.next.inj h).symm⟩
  · cases h

/-- What a step of any agent from `s` to `t` can do to the engine, the streams, the schedule and the index
left aside. -/
inductive State.EngineStep (s t : State) : Prop where
  /-- Nothing: an idle step, an error answer, a scrubber visit. -/
  | kept (h : t.engine = s.engine)
  /-- The write of a command that meets no error condition. -/
  | wrote (i : Instr) (hc : ¬ s.ConfigCause i) (hr : ¬ s.RangeCause i)
      (h : t.engine = (written i s).engine)
  /-- A soft error in a stored bit. -/
  | flipped (slot : SlotRef) (wsel bit : Nat) (hs : s.pending.head? = some (.corrupt slot wsel bit))
      (hb : s.corruptible slot wsel bit = true) (h : t.engine = (s.flipBit slot wsel bit).engine)
  /-- Reset. -/
  | reset (hs : s.pending.head? = some .reset) (h : t.engine = (State.resetFor s.params).engine)

/-- A command's part of a step: the causes and the write are those before the frame was taken. -/
theorem engineStep_of_exec {i : Instr} {s t : State} (h : exec i s.takeCommand = .next t) :
    s.EngineStep t := by
  have taken : s.takeCommand = s.withOutputs s.responses s.events s.pending.tail (s.position + 1) := rfl
  rcases exec_next h with ⟨status, rfl⟩ | ⟨hc, hr, rfl⟩
  · exact .kept (by simp)
  · rw [taken, configCause_withOutputs] at hc
    rw [taken, rangeCause_withOutputs] at hr
    exact .wrote i hc hr (by simp [taken, written_withOutputs])

theorem engineStep_of_step {s t : State} (h : step s = .next t) : s.EngineStep t := by
  cases hp : s.pending with
  | nil =>
    rw [step_idle hp] at h
    cases h
    exact .kept rfl
  | cons input rest =>
    cases input with
    | command f =>
      cases hd : decode f with
      | ok i =>
        rw [step_command hp hd] at h
        exact engineStep_of_exec h
      | error e =>
        rw [step_illegal hp hd] at h
        cases h
        exact .kept (by simp)
    | scrub g =>
      rw [step_scrub hp] at h
      obtain ⟨groups, rfl⟩ := scrubStep_next h
      exact .kept (by simp)
    | corrupt slot wsel bit =>
      rw [step_corrupt hp] at h
      obtain ⟨hb, rfl⟩ := corruptStep_next h
      exact .flipped slot wsel bit (by simp [hp]) hb (by cases slot <;> rfl)
    | reset =>
      rw [step_reset hp] at h
      cases h
      exact .reset (by simp [hp]) rfl

end Sys2Proof.Machine
end

section
/-! SUPPORT. The machine's invariant (10_state.md R39): each write to the state keeps it under the condition
that the command's checks give, so each command, each soft error and reset keep it. -/

namespace Sys2Proof.Machine

theorem not_overWide_iff {n : Nat} (v : BitVec n) (w : Nat) : ¬ OverWide v w ↔ v.toNat < 2 ^ w := by
  rw [← fitsWidth_false_iff, Bool.not_eq_false, fitsWidth, decide_eq_true_eq]

theorem configured_of_not_noWay {s : State} {w : Nat} (h : ¬ s.NoWay w) : s.configured w = true := by
  rwa [← configured_false_iff, Bool.not_eq_false] at h

/-! ## After reset -/

@[simp] theorem resetFor_wayCfgAt (p : Params) (w : Nat) : (State.resetFor p).wayCfgAt w = WayCfg.zero := rfl
@[simp] theorem resetFor_matrixAt (p : Params) (w i : Nat) : (State.resetFor p).matrixAt w i = 0 := rfl
@[simp] theorem resetFor_ramAt (p : Params) (w r b : Nat) :
    (State.resetFor p).ramAt w r b = RamEntry.zero := rfl
@[simp] theorem resetFor_stashAt (p : Params) (r c : Nat) :
    (State.resetFor p).stashAt r c = StashEntry.zero := rfl
@[simp] theorem resetFor_groupAt (p : Params) (g : Nat) :
    (State.resetFor p).groupAt g = ParityGroup.zero := rfl
@[simp] theorem resetFor_shiftAt (p : Params) (i : Nat) : (State.resetFor p).shiftAt i = 0 := rfl
@[simp] theorem resetFor_configured (p : Params) (w : Nat) : (State.resetFor p).configured w = false := by
  simp [State.configured, WayCfg.zero]

theorem ParityGroup.zero_legal (p : Params) : ParityGroup.zero.Legal p := by
  simp [ParityGroup.Legal, ParityGroup.zero]

/-- An array that is empty reads zero, so reset meets every clause about what is not zero. -/
theorem resetFor_inv {p : Params} (hp : p.wf) : (State.resetFor p).Inv where
  params := hp
  canonical := ⟨Memory.wf_nil _, Memory.wf_nil _, Memory.wf_nil _, Memory.wf_nil _, Memory.wf_nil _,
    Memory.wf_nil _⟩
  wayCfg w := by simp
  matrix w i h := absurd rfl h
  ram w r b h := absurd rfl h
  stash r c h := absurd rfl h
  activeVersion := Nat.two_pow_pos _
  groups g := ⟨ParityGroup.zero_legal p, fun h => nomatch h⟩
  shifts i h := absurd rfl h

/-! ## Versions -/

theorem State.Inv.ramAt_ver_lt {s : State} (hi : s.Inv) (w r b : Nat) :
    (s.ramAt w r b).ver.toNat < 2 ^ s.params.vw := by
  by_cases h : s.ramAt w r b = RamEntry.zero
  · rw [h]
    exact Nat.two_pow_pos _
  · obtain ⟨-, -, -, hver⟩ := hi.ram w r b h
    exact hver

theorem State.Inv.stashAt_ver_lt {s : State} (hi : s.Inv) (r c : Nat) :
    (s.stashAt r c).ver.toNat < 2 ^ s.params.vw := by
  by_cases h : s.stashAt r c = StashEntry.zero
  · rw [h]
    exact Nat.two_pow_pos _
  · obtain ⟨-, -, hver⟩ := hi.stash r c h
    exact hver

/-! ## Each write -/

theorem setWayCfg_configured (s : State) (w : Nat) (c : WayCfg) (w' : Nat) :
    (s.setWayCfg w c).configured w' =
      if w' = w then decide (w < s.params.nw) && c.valid else s.configured w' := by
  show (decide (w' < s.params.nw) && ((s.setWayCfg w c).wayCfgAt w').valid) = _
  rw [State.setWayCfg_wayCfgAt]
  split
  · rw [‹w' = w›]
  · rfl

section
variable {s : State} (hi : s.Inv)
include hi

theorem State.Inv.setMissDef (k : Nat) (x : MissDefault) : (s.setMissDef k x).Inv :=
  { hi with canonical := { hi.canonical with } }

theorem State.Inv.setActiveVersion {v : Version} (hv : v.toNat < 2 ^ s.params.vw) :
    (s.setActiveVersion v).Inv := 
  { hi with canonical := { hi.canonical with }, activeVersion := hv }

theorem State.Inv.setShift {i : Nat} (h : i ≤ s.params.nw) (x : BitVec 8) : (s.setShift i x).Inv :=
  { hi with
    canonical := { hi.canonical with shifts := Memory.wf_write hi.canonical.shifts i x }
    shifts := fun j hj => by
      rw [State.setShift_shiftAt] at hj
      split at hj
      · rwa [‹j = i›]
      · exact hi.shifts j hj }

theorem State.Inv.setGroup {g : Nat} {x : ParityGroup} (hg : g < s.params.npg) (hx : x.Legal s.params) :
    (s.setGroup g x).Inv :=
  { hi with
    canonical := { hi.canonical with groups := Memory.wf_write hi.canonical.groups g x }
    groups := fun g' => by
      rw [State.setGroup_groupAt]
      split
      · exact ⟨hx, fun _ => ‹g' = g› ▸ hg⟩
      · exact hi.groups g' }

theorem State.Inv.setStash {r c : Nat} {e : StashEntry} (hr : r < s.params.nr) (hc : c < s.params.ns)
    (hv : e.ver.toNat < 2 ^ s.params.vw) : (s.setStash r c e).Inv :=
  { hi with
    canonical := { hi.canonical with stash := Memory.wf_write hi.canonical.stash (stashKey r c) e }
    stash := fun r' c' h => by
      rw [State.setStash_stashAt] at h ⊢
      split at h
      · obtain ⟨rfl, rfl⟩ := ‹r' = r ∧ c' = c›
        exact ⟨hr, hc, by simpa using hv⟩
      · simpa [*] using hi.stash r' c' h }

theorem State.Inv.setRam {w r b : Nat} {e : RamEntry} (hw : w < s.params.nw) (hr : r < s.params.nr)
    (hb : b < s.params.nb) (hv : e.ver.toNat < 2 ^ s.params.vw) : (s.setRam w r b e).Inv :=
  { hi with
    canonical := { hi.canonical with ram := Memory.wf_write hi.canonical.ram (ramKey w r b) e }
    ram := fun w' r' b' h => by
      rw [State.setRam_ramAt] at h ⊢
      split at h
      · obtain ⟨rfl, rfl, rfl⟩ := ‹w' = w ∧ r' = r ∧ b' = b›
        exact ⟨hw, hr, hb, by simpa using hv⟩
      · simpa [*] using hi.ram w' r' b' h }

theorem State.Inv.setMatrix {w i : Nat} {x : Wide} (hw : s.configured w = true)
    (hrow : i < (s.wayCfgAt w).hw) (hx : x.toNat < 2 ^ (s.wayCfgAt w).kw) : (s.setMatrix w i x).Inv :=
  { hi with
    canonical := { hi.canonical with matrix := Memory.wf_write hi.canonical.matrix (matrixKey w i) x }
    matrix := fun w' i' h => by
      rw [State.setMatrix_matrixAt] at h ⊢
      split at h
      · obtain ⟨rfl, rfl⟩ := ‹w' = w ∧ i' = i›
        exact ⟨hw, hrow, by simpa using hx⟩
      · simpa [*] using hi.matrix w' i' h }

theorem State.Inv.clearMatrix (w : Nat) : (s.clearMatrix w).Inv := by
  obtain ⟨m, hm, hwf⟩ := s.clearMatrix_spec w
  have matrix : ∀ w' i, (s.clearMatrix w).matrixAt w' i ≠ 0 →
      s.configured w' = true ∧ i < (s.wayCfgAt w').hw ∧
        ((s.clearMatrix w).matrixAt w' i).toNat < 2 ^ (s.wayCfgAt w').kw := fun w' i h => by
    rw [State.clearMatrix_matrixAt] at h ⊢
    split at h
    · exact absurd rfl h
    · simpa [*] using hi.matrix w' i h
  rw [hm] at matrix ⊢
  exact { hi with
    canonical := { hi.canonical with matrix := hwf hi.canonical.matrix }
    matrix := matrix }

/-- Every matrix row of a way that is not configured is zero. -/
theorem State.Inv.matrix_of_not_configured {w : Nat} (hw : s.configured w = false) (i : Nat) :
    s.matrixAt w i = 0 := by
  by_contra h
  obtain ⟨hc, -, -⟩ := hi.matrix w i h
  rw [hw] at hc
  cases hc

/-- A first record of a way: the rows of its matrix are zero, whatever the widths of the record. -/
theorem State.Inv.setWayCfg {w : Nat} {c : WayCfg} (hw : w < s.params.nw) (hfree : s.configured w = false)
    (hvalid : c.valid = true) (hc : c.Legal) : (s.setWayCfg w c).Inv :=
  { hi with
    canonical := { hi.canonical with wayCfg := Memory.wf_write hi.canonical.wayCfg w c }
    wayCfg := fun w' => by
      rw [setWayCfg_configured, State.setWayCfg_wayCfgAt]
      split
      · simpa [hw, hvalid] using hc
      · exact hi.wayCfg w'
    matrix := fun w' i h => by
      rw [setWayCfg_configured, State.setWayCfg_wayCfgAt]
      split
      · subst w'
        exact absurd (hi.matrix_of_not_configured hfree i) h
      · exact hi.matrix w' i h }

end

/-! ## Each command -/

/-- The checks of `CFG_WAY` give a legal record of a way that exists and is not configured yet. -/
theorem legal_of_not_configCause_cfgWay {s : State} {w kw hw rl rw bl bw vl vw : Nat} {layout : HashLayout}
    (hc : ¬ s.ConfigCause (.cfgWay w kw hw rl rw bl bw vl vw layout)) :
    w < s.params.nw ∧ s.configured w = false ∧
      WayCfg.Legal ⟨true, kw, hw, rl, rw, bl, bw, vl, vw, .v2⟩ := by
  simp only [State.ConfigCause, not_or, not_not, not_lt, not_le, Bool.not_eq_true] at hc
  obtain ⟨hway, hfree, hkw, hhw, hrw, hbw, hvw, hrow, hbank, hvpn, -⟩ := hc
  exact ⟨hway, (configured_false_iff s w).mpr (.inr hfree),
    ⟨hkw, hhw, ⟨hrw, hrow⟩, ⟨hbw, hbank⟩, ⟨hvw, hvpn⟩, rfl⟩⟩

/-- The checks of `SET_PARITY_GROUP` give a legal group record. -/
theorem legal_of_not_cause_setParityGroup {s : State} {g : Nat} {valid : Bool} {kind : SlotKind}
    {way row col wsel : Nat} {lo hi : BitVec 16} {expected : Bool}
    (hc : ¬ s.ConfigCause (.setParityGroup g valid kind way row col wsel lo hi expected))
    (hr : ¬ s.RangeCause (.setParityGroup g valid kind way row col wsel lo hi expected)) :
    g < s.params.npg ∧ ParityGroup.Legal s.params
      (if valid then ⟨true, kind, way, row, col, wsel, hi ++ lo, expected⟩ else ParityGroup.zero) := by
  simp only [State.RangeCause, not_or, not_le] at hr
  obtain ⟨hg, hslot⟩ := hr
  refine ⟨hg, ?_⟩
  cases valid with
  | false => exact ParityGroup.zero_legal s.params
  | true =>
    cases kind with
    | ram =>
      simp only [State.ConfigCause, reduceCtorEq, true_and, false_and, or_false, not_or, not_lt,
        not_le] at hc hslot
      obtain ⟨hwsel, hway⟩ := hc
      obtain ⟨hrow, hcol⟩ := hslot
      exact ⟨Nat.lt_succ_of_le hwsel, hrow, hway, hcol⟩
    | stash =>
      simp only [State.ConfigCause, reduceCtorEq, true_and, false_and, false_or, not_or, not_not, not_lt,
        not_le, ne_eq] at hc hslot
      obtain ⟨hwsel, hway⟩ := hc
      obtain ⟨hrow, hcol⟩ := hslot
      exact ⟨Nat.lt_succ_of_le hwsel, hrow, hway, hcol⟩

/-- A command that meets no error condition keeps the invariant. -/
theorem written_inv {i : Instr} {s : State} (hi : s.Inv) (hc : ¬ s.ConfigCause i) (hr : ¬ s.RangeCause i) :
    (written i s).Inv := by
  cases i with
  | cfgWay =>
    obtain ⟨hway, hfree, hlegal⟩ := legal_of_not_configCause_cfgWay hc
    exact (hi.setWayCfg hway hfree rfl hlegal).clearMatrix _
  | setHashRow way row kw sel =>
    simp only [State.ConfigCause, not_or, not_not, not_le, not_overWide_iff] at hc
    obtain ⟨hway, rfl, hrow, hsel⟩ := hc
    exact hi.setMatrix (configured_of_not_noWay (by simpa using hway)) hrow hsel
  | insert way row bank ver =>
    simp only [State.ConfigCause, State.RangeCause, not_or, not_le] at hc hr
    obtain ⟨⟨hway, -⟩, -, -, -, -, -, hver⟩ := hc
    exact hi.setRam hway hr.1 hr.2 hver
  | evict way row bank =>
    simp only [State.ConfigCause, State.RangeCause, not_or, not_le] at hc hr
    exact hi.setRam hc.1 hr.1 hr.2 (hi.ramAt_ver_lt way row bank)
  | stashWrite =>
    simp only [State.ConfigCause, State.RangeCause, not_or, not_le] at hc hr
    exact hi.setStash hr.1 hr.2 hc
  | swapVersion =>
    simp only [State.ConfigCause, not_le] at hc
    exact hi.setActiveVersion hc
  | setParityGroup =>
    obtain ⟨hg, hlegal⟩ := legal_of_not_cause_setParityGroup hc hr
    exact hi.setGroup hg hlegal
  | setMissDefault => exact hi.setMissDef _ _
  | setShiftcount => exact hi.setShift (not_lt.mp hr) _
  | lookup | hash | map | wayLookup | probe | pcheck => exact hi

/-! ## A soft error -/

theorem xor_oneBit_lt {v : Version} {k w : Nat} (hv : v.toNat < 2 ^ w) (hk : k < w) :
    (v ^^^ oneBit 8 k).toNat < 2 ^ w := by
  rw [BitVec.toNat_xor]
  refine Nat.xor_lt_two_pow hv ?_
  rw [oneBit, BitVec.toNat_ofNat]
  exact lt_of_le_of_lt (Nat.mod_le _ _) (Nat.pow_lt_pow_right (by decide) hk)

theorem ramBitBacked_iff (p : Params) (wsel bit : Nat) :
    ramBitBacked p wsel bit = true ↔ wsel < 10 ∧ bit < if wsel = 9 then 24 + p.vw else 32 := by
  rw [ramBitBacked, Bool.and_eq_true, decide_eq_true_eq, decide_eq_true_eq]
  rfl

theorem stashBitBacked_iff (p : Params) (wsel bit : Nat) :
    stashBitBacked p wsel bit = true ↔
      wsel < 10 ∧ bit < if wsel = 9 then p.vw else if wsel = 8 then 25 else 32 := by
  rw [stashBitBacked, Bool.and_eq_true, decide_eq_true_eq, decide_eq_true_eq]
  rfl

/-- The version of a way slot stands at bit 24 and up of image word 9 (10_state.md R35). -/
theorem RamEntry.flip_ver (e : RamEntry) (wsel bit : Nat) :
    (e.flip wsel bit).ver = if 8 < wsel ∧ 24 ≤ bit then e.ver ^^^ oneBit 8 (bit - 24) else e.ver := by
  unfold RamEntry.flip
  split_ifs <;> grind

/-- The version of a stash slot is image word 9 (10_state.md R36). -/
theorem StashEntry.flip_ver (e : StashEntry) (wsel bit : Nat) :
    (e.flip wsel bit).ver = if 8 < wsel then e.ver ^^^ oneBit 8 bit else e.ver := by
  unfold StashEntry.flip
  split_ifs <;> grind

/-- Of the version bits only those below `VW` are backed by storage, so a soft error keeps the width. -/
theorem RamEntry.flip_ver_lt {e : RamEntry} {p : Params} {wsel bit : Nat} (hv : e.ver.toNat < 2 ^ p.vw)
    (hb : ramBitBacked p wsel bit = true) : (e.flip wsel bit).ver.toNat < 2 ^ p.vw := by
  obtain ⟨hwsel, hbit⟩ := (ramBitBacked_iff p wsel bit).mp hb
  rw [RamEntry.flip_ver]
  split
  · rw [if_pos (by omega)] at hbit
    exact xor_oneBit_lt hv (by omega)
  · exact hv

theorem StashEntry.flip_ver_lt {e : StashEntry} {p : Params} {wsel bit : Nat} (hv : e.ver.toNat < 2 ^ p.vw)
    (hb : stashBitBacked p wsel bit = true) : (e.flip wsel bit).ver.toNat < 2 ^ p.vw := by
  obtain ⟨hwsel, hbit⟩ := (stashBitBacked_iff p wsel bit).mp hb
  rw [StashEntry.flip_ver]
  split
  · rw [if_pos (by omega)] at hbit
    exact xor_oneBit_lt hv hbit
  · exact hv

theorem flipBit_inv {s : State} {slot : SlotRef} {wsel bit : Nat} (hi : s.Inv)
    (hb : s.corruptible slot wsel bit = true) : (s.flipBit slot wsel bit).Inv := by
  cases slot with
  | ram w r b =>
    simp only [State.corruptible, State.slotExists, State.ramInRange, Bool.and_eq_true,
      decide_eq_true_eq] at hb
    obtain ⟨⟨hw, hr, hbank⟩, hbit⟩ := hb
    exact hi.setRam hw hr hbank (RamEntry.flip_ver_lt (hi.ramAt_ver_lt w r b) hbit)
  | stash r c =>
    simp only [State.corruptible, State.slotExists, State.stashInRange, Bool.and_eq_true,
      decide_eq_true_eq] at hb
    obtain ⟨⟨hr, hc⟩, hbit⟩ := hb
    exact hi.setStash hr hc (StashEntry.flip_ver_lt (hi.stashAt_ver_lt r c) hbit)

/-! ## Every step -/

/-- Settles O16, by the four things a step can do to the engine. -/
theorem stepKeepsInvariant : Obligations.StepKeepsInvariant := by
  intro s t hi h
  cases engineStep_of_step h with
  | kept he => exact hi.of_engine he
  | wrote i hc hr he => exact (written_inv hi hc hr).of_engine he
  | flipped slot wsel bit _ hb he => exact (flipBit_inv hi hb).of_engine he
  | reset _ he => exact (resetFor_inv hi.params).of_engine he

end Sys2Proof.Machine
end

section
/-! SUPPORT. Entries within their way's key width (10_state.md R39 (a) and the slot half of (c)): every step
but a soft error keeps them so. -/

namespace Sys2Proof.Machine

/-- The entry's bits all lie within a key of `kw` bits. -/
def RamEntry.Confined (e : RamEntry) (kw : Nat) : Prop :=
  e.mask.toNat < 2 ^ kw ∧ e.data.toNat < 2 ^ kw ∧ e.ne.toNat < 2 ^ ((kw + 3) / 4)

theorem RamEntry.zero_confined (kw : Nat) : RamEntry.zero.Confined kw :=
  ⟨Nat.two_pow_pos _, Nat.two_pow_pos _, Nat.two_pow_pos _⟩

theorem entriesConfined_iff (s : State) : s.EntriesConfined ↔ ∀ w r b,
    if s.configured w then (s.ramAt w r b).Confined (s.wayCfgAt w).kw else s.ramAt w r b = RamEntry.zero :=
  Iff.rfl

theorem State.EntriesConfined.ramAt {s : State} (h : s.EntriesConfined) {w : Nat}
    (hw : s.configured w = true) (r b : Nat) : (s.ramAt w r b).Confined (s.wayCfgAt w).kw := by
  simpa only [hw, if_true] using (entriesConfined_iff s).mp h w r b

/-- It speaks of the parameters, the way records and the slots only. -/
theorem State.EntriesConfined.congr {s t : State} (hp : t.params = s.params) (hc : t.wayCfg = s.wayCfg)
    (hr : t.ram = s.ram) (h : s.EntriesConfined) : t.EntriesConfined := by
  cases s
  cases t
  cases hp
  cases hc
  cases hr
  exact h

theorem State.EntriesConfined.of_engine {s t : State} (he : t.engine = s.engine) (h : s.EntriesConfined) :
    t.EntriesConfined :=
  have field {α : Type} (f : State → α) : f t.engine = f s.engine := congrArg f he
  h.congr (field State.params) (field State.wayCfg) (field State.ram)

theorem resetFor_entriesConfined (p : Params) : (State.resetFor p).EntriesConfined := by
  intro w r b
  simp

theorem State.EntriesConfined.setRam {s : State} (h : s.EntriesConfined) {w r b : Nat} {e : RamEntry}
    (hw : s.configured w = true) (he : e.Confined (s.wayCfgAt w).kw) :
    (s.setRam w r b e).EntriesConfined := by
  rw [entriesConfined_iff] at h ⊢
  intro w' r' b'
  rw [State.setRam_configured, State.setRam_wayCfgAt, State.setRam_ramAt]
  by_cases hslot : w' = w ∧ r' = r ∧ b' = b
  · obtain ⟨rfl, rfl, rfl⟩ := hslot
    simpa [hw] using he
  · simpa [hslot] using h w' r' b'

/-- The first record of a way: the slots of the way were zero, so they fit any key width. -/
theorem State.EntriesConfined.setWayCfg {s : State} (h : s.EntriesConfined) {w : Nat} {c : WayCfg}
    (hw : w < s.params.nw) (hfree : s.configured w = false) (hvalid : c.valid = true) :
    (s.setWayCfg w c).EntriesConfined := by
  rw [entriesConfined_iff] at h ⊢
  intro w' r' b'
  rw [setWayCfg_configured, State.setWayCfg_wayCfgAt, State.setWayCfg_ramAt]
  by_cases e : w' = w
  · subst e
    have hzero : s.ramAt w' r' b' = RamEntry.zero := by simpa [hfree] using h w' r' b'
    simpa [hw, hvalid, hzero] using RamEntry.zero_confined c.kw
  · simpa [e] using h w' r' b'

theorem State.EntriesConfined.clearMatrix {s : State} (h : s.EntriesConfined) (w : Nat) :
    (s.clearMatrix w).EntriesConfined :=
  h.congr (s.clearMatrix_params w) (s.clearMatrix_wayCfg w) (s.clearMatrix_ram w)

theorem written_entriesConfined {i : Instr} {s : State} (h : s.EntriesConfined) (hc : ¬ s.ConfigCause i) :
    (written i s).EntriesConfined := by
  cases i with
  | cfgWay =>
    obtain ⟨hway, hfree, -⟩ := legal_of_not_configCause_cfgWay hc
    exact (h.setWayCfg hway hfree rfl).clearMatrix _
  | insert way row bank ver mw mask dw data vpn ne ctl =>
    simp only [State.ConfigCause, not_or, not_not, not_overWide_iff] at hc
    obtain ⟨hway, rfl, rfl, hmask, hdata, hne, -⟩ := hc
    exact h.setRam (configured_of_not_noWay (by simpa using hway)) ⟨hmask, hdata, hne⟩
  | evict way row bank =>
    have hway : s.configured way = true := configured_of_not_noWay hc
    obtain ⟨hmask, hdata, -⟩ := h.ramAt hway row bank
    exact h.setRam hway ⟨hmask, hdata, Nat.two_pow_pos _⟩
  | setHashRow | stashWrite | swapVersion | setParityGroup | setMissDefault | setShiftcount =>
    exact h.congr rfl rfl rfl
  | lookup | hash | map | wayLookup | probe | pcheck => exact h

/-- Settles O17: of the four things a step can do to the engine the soft error is excluded. -/
theorem stepKeepsEntriesConfined : Obligations.StepKeepsEntriesConfined := by
  intro s t _ h hquiet hstep
  cases engineStep_of_step hstep with
  | kept he => exact h.of_engine he
  | wrote i hc _ he => exact (written_entriesConfined h hc).of_engine he
  | flipped slot wsel bit hs => exact absurd ⟨slot, wsel, bit, hs⟩ hquiet
  | reset _ he => exact (resetFor_entriesConfined s.params).of_engine he

end Sys2Proof.Machine
end

section
/-! SUPPORT. The other statements about the state of the engine: who writes it, what is never read, what a
step takes, how long a way record stands, what reset gives, and the fields no match reads. -/

namespace Sys2Proof.Machine

/-! ## Commands -/

/-- Settles O12: an error answer writes an output only, and each write is to the named field. -/
theorem writersOfEachState : Obligations.WritersOfEachState := by
  intro i s t h
  rcases exec_next h with ⟨status, rfl⟩ | ⟨-, -, rfl⟩
  · simp
  · cases i <;> simp [written, reported, Instr.opcode]

/-- Settles O14: the checks, the write, the report and the reply are the same around any outputs. -/
theorem outputsAreNeverRead : Obligations.OutputsAreNeverRead := by
  intro i s t rs es ins n h
  change ∃ r ev, _ ∧ _ ∧ exec i (s.withOutputs rs es ins n) = _
  have hconfig := configCause_withOutputs i s rs es ins n
  have hrange := rangeCause_withOutputs i s rs es ins n
  rcases exec_cases i s with ⟨hc, he⟩ | ⟨hc, hr, he⟩ | ⟨hc, hr, he⟩ <;> rw [he] at h
  · cases h
    refine ⟨_, [], rfl, (List.append_nil _).symm, ?_⟩
    rw [exec_configError (hconfig.mpr hc), List.append_nil]
    rfl
  · cases h
    refine ⟨_, [], rfl, (List.append_nil _).symm, ?_⟩
    rw [exec_rangeError (mt hconfig.mp hc) (hrange.mpr hr), List.append_nil]
    rfl
  · rw [effect_eq] at h
    cases h
    obtain ⟨hresponses, hevents⟩ := written_outputs i s
    refine ⟨reply i s, (reported i s).map Event.parityError, by simp [hresponses], by simp [hevents], ?_⟩
    rw [exec_effect (mt hconfig.mp hc) (mt hrange.mp hr), effect_eq, written_withOutputs,
      reported_withOutputs, reply_withOutputs]
    rfl

/-- Settles O26: layout `V1` is a cause of `ConfigError`. -/
theorem layoutV1Refused : Obligations.LayoutV1Refused := by
  intro s w kw hw rl rw bl bw vl vw
  exact exec_configError (by simp [State.ConfigCause])

/-! ## Steps -/

/-- Settles O5: taking the frame is what stands before the command. -/
theorem stepRunsDecodedCommand : Obligations.StepRunsDecodedCommand := by
  intro s f rest i hp hd
  rw [step_command hp hd, State.takeCommand, State.advance, hp]
  rfl

theorem flipBit_sameHarness (s : State) (slot : SlotRef) (wsel bit : Nat) :
    s.SameHarness (s.flipBit slot wsel bit) := by
  cases slot <;> exact ⟨rfl, rfl, rfl, rfl⟩

/-- Settles O15, by what the agent of the first scheduled step does. -/
theorem stepTakesOneInput : Obligations.StepTakesOneInput := by
  intro s t h
  cases hp : s.pending with
  | nil =>
    rw [step_idle hp] at h
    cases h
    simp [hp]
  | cons input rest =>
    cases input with
    | command f =>
      cases hd : decode f with
      | ok i =>
        rw [step_command hp hd] at h
        obtain ⟨u, -, hu, -, -, hparams, hpending, hposition⟩ := everyCommandAnswersOnce i s.takeCommand
        rw [hu] at h
        cases h
        simp [hparams, hpending, hposition, hp]
      | error e =>
        rw [step_illegal hp hd] at h
        cases h
        simp [hp]
    | scrub g =>
      rw [step_scrub hp] at h
      obtain ⟨groups, rfl⟩ := scrubStep_next h
      simp [hp]
    | corrupt slot wsel bit =>
      rw [step_corrupt hp] at h
      obtain ⟨-, rfl⟩ := corruptStep_next h
      obtain ⟨hparams, hpending, hposition, -⟩ := flipBit_sameHarness s.advance slot wsel bit
      simp [hparams, hpending, hposition, hp]
    | reset =>
      rw [step_reset hp] at h
      cases h
      simp [hp, State.resetFor]

theorem wayCfgAt_of_engine {s t : State} (h : t.engine = s.engine) (w : Nat) :
    t.wayCfgAt w = s.wayCfgAt w := by
  show t.engine.wayCfgAt w = s.engine.wayCfgAt w
  rw [h]

/-- A second `CFG_WAY` for a way is refused (40_hash.md R101), so no write reaches a record that stands. -/
theorem written_wayCfgAt_of_valid {i : Instr} {s : State} {w : Nat} (hv : (s.wayCfgAt w).valid = true)
    (hc : ¬ s.ConfigCause i) : (written i s).wayCfgAt w = s.wayCfgAt w := by
  cases i with
  | cfgWay way =>
    have hne : w ≠ way := by
      rintro rfl
      exact hc (.inr (.inl hv))
    simp [written, hne]
  | _ => rfl

/-- Settles O21, by the four things a step can do to the engine. -/
theorem wayConfigurationFixedForLife : Obligations.WayConfigurationFixedForLife := by
  intro s t w hv hs h
  cases engineStep_of_step h with
  | kept he => exact wayCfgAt_of_engine he w
  | wrote i hc _ he => exact (wayCfgAt_of_engine he w).trans (written_wayCfgAt_of_valid hv hc)
  | flipped slot wsel bit _ _ he => exact (wayCfgAt_of_engine he w).trans (by cases slot <;> rfl)
  | reset hreset => exact absurd hreset hs

/-! ## Reset -/

/-- Settles O18: reset lists no element of any array. -/
theorem resetMeetsInvariants : Obligations.ResetMeetsInvariants :=
  fun p hp => ⟨resetFor_inv hp, resetFor_entriesConfined p⟩

/-- Settles O19: an empty array reads zero at every coordinate. -/
theorem resetStateIsZero : Obligations.ResetStateIsZero := by
  intro p
  exact ⟨resetFor_wayCfgAt p, resetFor_matrixAt p, resetFor_ramAt p, resetFor_stashAt p, rfl,
    resetFor_groupAt p, fun k h => Vector.getElem_replicate h, resetFor_shiftAt p, rfl, rfl⟩

/-! ## Matches -/

/-- Settles O57: neither match condition reads an opaque field, and a hit returns the VPN stored. -/
theorem opaqueFieldsNeverMatched : Obligations.OpaqueFieldsNeverMatched := by
  refine ⟨fun e key ver vpn ctl => ?_, fun e key av idc rbs => rfl⟩
  have hhits : RamEntry.hits { e with vpn := vpn, ctl := ctl } key ver = e.hits key ver := rfl
  rw [wayMatch, wayMatch, hhits]
  cases e.hits key ver <;> rfl

end Sys2Proof.Machine
end

section
/-! SUPPORT. The stored bytes of a frame (20_memory.md R58): which bytes a word has, where they stand among
the bytes of several words, and that reading them back gives the words. -/

namespace Sys2Proof

/-! ## The bytes of one word -/

@[simp] theorem bytesOfWord_length (w : Word) : (bytesOfWord w).length = 8 := by simp [bytesOfWord]

theorem bytesOfWord_getElem? (w : Word) {n : Nat} (h : n < 8) :
    (bytesOfWord w)[n]? = some (w.extractLsb' (8 * n) 8) := by simp [bytesOfWord, h]

/-- The eight bytes of a word, joined with byte 0 lowest, are the word. -/
theorem join_bytes (w : Word) :
    w.extractLsb' 56 8 ++ w.extractLsb' 48 8 ++ w.extractLsb' 40 8 ++ w.extractLsb' 32 8 ++
      w.extractLsb' 24 8 ++ w.extractLsb' 16 8 ++ w.extractLsb' 8 8 ++ w.extractLsb' 0 8 = w := by
  rw [append_extract w 48 8 8, append_extract w 40 16 8, append_extract w 32 24 8,
    append_extract w 24 32 8, append_extract w 16 40 8, append_extract w 8 48 8,
    append_extract w 0 56 8]
  simp

theorem wordsOfBytes_bytesOfWord_append (w : Word) (bytes : List Byte) :
    wordsOfBytes (bytesOfWord w ++ bytes) = (wordsOfBytes bytes).map (w :: ·) := by
  conv_rhs => rw [← join_bytes w]
  rfl

/-! ## The bytes of several words -/

theorem wordsOfBytes_flatMap (ws : List Word) : wordsOfBytes (ws.flatMap bytesOfWord) = some ws := by
  induction ws with
  | nil => rfl
  | cons w ws ih => rw [List.flatMap_cons, wordsOfBytes_bytesOfWord_append, ih, Option.map_some]

theorem flatMap_bytesOfWord_length (ws : List Word) :
    (ws.flatMap bytesOfWord).length = 8 * ws.length := by
  induction ws with
  | nil => rfl
  | cons w ws ih =>
    rw [List.flatMap_cons, List.length_append, bytesOfWord_length, ih, List.length_cons]
    omega

/-- The bytes of word `k` start at index `8k`: the `k` words before it take 8 bytes each. -/
theorem flatMap_bytesOfWord_getElem? {ws : List Word} {k n : Nat} {w : Word} (hw : ws[k]? = some w)
    (hn : n < 8) : (ws.flatMap bytesOfWord)[8 * k + n]? = some (w.extractLsb' (8 * n) 8) := by
  induction ws generalizing k with
  | nil => simp at hw
  | cons v ws ih =>
    rw [List.flatMap_cons]
    cases k with
    | zero =>
      obtain rfl : v = w := by simpa using hw
      rw [List.getElem?_append_left (by simpa using hn), Nat.mul_zero, Nat.zero_add,
        bytesOfWord_getElem? v hn]
    | succ k =>
      rw [List.getElem?_append_right (by rw [bytesOfWord_length]; omega), bytesOfWord_length,
        show 8 * (k + 1) + n - 8 = 8 * k + n by omega]
      exact ih (by simpa using hw)

/-- Settles O6: a frame's bytes are those of its words, `W0` first. -/
theorem storedBytesRoundTrip : Obligations.StoredBytesRoundTrip := by
  intro f
  refine ⟨?_, flatMap_bytesOfWord_length f.words, fun k n w => flatMap_bytesOfWord_getElem?⟩
  rw [Frame.ofBytes, Frame.toBytes, wordsOfBytes_flatMap]
  rfl

end Sys2Proof
end

section
/-! SUPPORT. The same command twice in a row: a command that left the engine as it was answers again as it
did (20_memory.md R55), and a write made a second time leaves what it left the first time (R56). -/

namespace Sys2Proof.Machine

/-! ## Every write is its own repetition -/

@[simp] theorem State.setMatrix_setMatrix (s : State) (w i : Nat) (x y : Wide) :
    (s.setMatrix w i x).setMatrix w i y = s.setMatrix w i y := by simp [State.setMatrix]

@[simp] theorem State.setRam_setRam (s : State) (w r b : Nat) (d e : RamEntry) :
    (s.setRam w r b d).setRam w r b e = s.setRam w r b e := by simp [State.setRam]

@[simp] theorem State.setStash_setStash (s : State) (r c : Nat) (d e : StashEntry) :
    (s.setStash r c d).setStash r c e = s.setStash r c e := by simp [State.setStash]

@[simp] theorem State.setGroup_setGroup (s : State) (g : Nat) (x y : ParityGroup) :
    (s.setGroup g x).setGroup g y = s.setGroup g y := by simp [State.setGroup]

@[simp] theorem State.setMissDef_setMissDef (s : State) (k : Nat) (x y : MissDefault) :
    (s.setMissDef k x).setMissDef k y = s.setMissDef k y := by simp [State.setMissDef]

@[simp] theorem State.setShift_setShift (s : State) (i : Nat) (x y : BitVec 8) :
    (s.setShift i x).setShift i y = s.setShift i y := by simp [State.setShift]

/-- Writes are whole, so the second write to a place stands alone. `EVICT` reads the entry that it writes, but
the only field it changes is 0 from the first time on. `CFG_WAY` is left out: it is never run twice for a way
(40_hash.md R101). -/
theorem written_written {i : Instr} (hi : i.opcode ≠ 0x01) (s : State) :
    written i (written i s) = written i s := by
  cases i with
  | cfgWay => exact absurd rfl hi
  | setHashRow | insert | evict | stashWrite | setParityGroup | setMissDefault | setShiftcount =>
    simp [written]
  | swapVersion | lookup | hash | map | wayLookup | probe | pcheck => rfl

/-! ## In a state with the same engine -/

/-- States with the same engine differ in outputs, schedule and index alone. -/
theorem State.eq_withOutputs_of_engine {s t : State} (h : t.engine = s.engine) :
    t = s.withOutputs t.responses t.events t.pending t.position := by
  show t.engine.withOutputs t.responses t.events t.pending t.position = _
  rw [h]
  rfl

theorem configCause_of_engine {i : Instr} {s t : State} (h : t.engine = s.engine) :
    t.ConfigCause i ↔ s.ConfigCause i := by
  rw [State.eq_withOutputs_of_engine h]
  exact configCause_withOutputs i s _ _ _ _

theorem written_engine_of_engine (i : Instr) {s t : State} (h : t.engine = s.engine) :
    (written i t).engine = (written i s).engine := by
  rw [State.eq_withOutputs_of_engine h, written_withOutputs, withOutputs_engine]

/-- A command that left the engine as it was gives the same response again, since it reads no output, and
leaves the engine as it was again. -/
theorem exec_again_of_engine {i : Instr} {s t : State} (h : exec i s = .next t)
    (he : t.engine = s.engine) :
    ∃ r u, t.responses = s.responses ++ [r] ∧ exec i t = .next u ∧
      u.responses = t.responses ++ [r] ∧ u.engine = t.engine := by
  obtain ⟨r, ev, hr, -, hagain⟩ :=
    outputsAreNeverRead i s t t.responses t.events t.pending t.position h
  have ht : t = { s with responses := t.responses, events := t.events, pending := t.pending,
                         position := t.position } := State.eq_withOutputs_of_engine he
  rw [← ht] at hagain
  exact ⟨r, _, hr, hagain, rfl, rfl⟩

/-! ## The lookup class -/

theorem written_lookupClass {i : Instr} (hi : i.isConfiguration = false) (s : State) :
    written i s = s := by
  cases i with
  | lookup | hash | map | wayLookup | probe | pcheck => rfl
  | _ => cases hi

theorem reported_of_ne_lookup {i : Instr} (hi : ∀ kw key, i ≠ .lookup kw key) (s : State) :
    reported i s = [] := by
  cases i with
  | lookup kw key => exact absurd rfl (hi kw key)
  | _ => rfl

/-- Settles O11: the write of a lookup command is none, and so it answers again as it did. -/
theorem lookupClassWritesNothing : Obligations.LookupClassWritesNothing := by
  intro i s t hi h
  have hkept : t.engine = s.engine ∧ ((∀ kw key, i ≠ .lookup kw key) → t.events = s.events) := by
    rcases exec_next h with ⟨status, rfl⟩ | ⟨-, -, rfl⟩
    · simp
    · rw [written_lookupClass hi]
      exact ⟨by simp, fun hne => by simp [reported_of_ne_lookup hne]⟩
  obtain ⟨hengine, hevents⟩ := hkept
  exact ⟨hengine, hevents, exec_again_of_engine h hengine⟩

/-! ## The configuration class -/

/-- After a `CFG_WAY`, refused or not, the same `CFG_WAY` is refused: what refused it stands, or the way is
configured now (40_hash.md R101). -/
theorem configCause_after_cfgWay {i : Instr} {s t : State} (hi : i.opcode = 0x01)
    (h : exec i s = .next t) : t.ConfigCause i := by
  cases i with
  | cfgWay way =>
    rcases exec_cases (.cfgWay way ..) s with ⟨hc, he⟩ | ⟨-, hr, -⟩ | ⟨-, -, he⟩
    · cases h.symm.trans he
      exact (configCause_of_engine (s.respond_engine _)).mpr hc
    · exact hr.elim
    · cases h.symm.trans (he.trans (effect_eq _ s))
      exact .inr (.inl (by simp [written, reported]))
  | _ => cases hi

/-- Any command but `CFG_WAY` a second time leaves the engine of the first time. -/
theorem exec_again_engine {i : Instr} {s t u : State} (hi : i.opcode ≠ 0x01) (h : exec i s = .next t)
    (hu : exec i t = .next u) : u.engine = t.engine := by
  rcases exec_next h with ⟨status, ht⟩ | ⟨-, -, ht⟩
  · obtain ⟨-, u', -, hu', -, hkept⟩ := exec_again_of_engine h (by simp [ht])
    cases hu.symm.trans hu'
    exact hkept
  · have hwrote : t.engine = (written i s).engine := by simp [ht]
    rcases exec_next hu with ⟨status, rfl⟩ | ⟨-, -, rfl⟩
    · simp
    · calc _ = (written i t).engine := by simp
        _ = (written i (written i s)).engine := written_engine_of_engine i hwrote
        _ = t.engine := by rw [written_written hi, hwrote]

/-- Settles O13: a second `CFG_WAY` is refused, and any other command is its own repetition. -/
theorem configurationIdempotent : Obligations.ConfigurationIdempotent := by
  intro i s t _ h
  by_cases hi : i.opcode = 0x01
  · exact ⟨_, exec_configError (configCause_after_cfgWay hi h), t.respond_engine _, fun _ => rfl⟩
  · obtain ⟨u, -, hu, -⟩ := everyCommandAnswersOnce i t
    exact ⟨u, hu, exec_again_engine hi h hu, fun hcfg => absurd hcfg hi⟩

end Sys2Proof.Machine
end

section
/-! SUPPORT. Decoding and encoding are each other's inverse (30_encoding.md sections 1 and 3): a frame read
by fields, and the one command that is written as those fields. -/

namespace Sys2Proof

/-! ## Fields -/

theorem fits8_iff {n : Nat} : fits8 n = true ↔ n < 256 := decide_eq_true_iff

@[simp] theorem fits8_toNat (x : BitVec 8) : fits8 x.toNat = true := fits8_iff.mpr x.isLt

@[simp] theorem fits8_fieldNat (w : Word) (lo : Nat) : fits8 (fieldNat w lo 8) = true := fits8_toNat _

@[simp] theorem ofNat_fieldNat (w : Word) (lo n : Nat) :
    BitVec.ofNat n (fieldNat w lo n) = field w lo n := by simp [fieldNat]

/-- `append_extract` with the place of the high part a numeral of its own. -/
theorem extract_append_extract {n : Nat} (x : BitVec n) {hi lo : Nat} (k m : Nat) (h : hi = lo + m) :
    x.extractLsb' hi k ++ x.extractLsb' lo m = x.extractLsb' lo (k + m) := by
  rw [h, append_extract]

theorem extract_all {n : Nat} (x : BitVec n) : x.extractLsb' 0 n = x := by simp

/-- `imm` of `SET_SHIFTCOUNT` is its low byte, as the high byte is reserved (30_encoding.md R83). -/
theorem zero_append_low_of_high_zero {x : BitVec 16} (h : x.extractLsb' 8 8 = 0#8) :
    0#8 ++ x.extractLsb' 0 8 = x := by
  rw [← h, extract_append_extract x 8 8 rfl]
  simp

theorem eq_ofNat_of_toNat_eq {n k : Nat} {x : BitVec n} (h : x.toNat = k) : x = BitVec.ofNat n k := by
  simp [← h]

/-! ## From a command to its frame and back -/

/-- The decoder sees the fields that the encoder wrote. -/
theorem decode_encode_eq (i : Instr) :
    decode (encode i) = decodeFields (encodeHeader i) (encodePayload i) := by
  rw [decode, encode, Header.parse_build]

/-- Settles O1. In the first group a word or `imm` joins several fields, and each is read back as a slice of
the join; in the second every word is an operand or half of one. -/
theorem decodeOfEncode : Obligations.DecodeOfEncode := by
  intro i h
  rw [decode_encode_eq]
  cases i with
  | cfgWay | insert | stashWrite | setParityGroup | setMissDefault | setShiftcount | pcheck =>
    simp only [Instr.wellFormed, Bool.and_eq_true, fits8_iff] at h
    refine ifReservedZero_eq_ok.mpr ?_
    simp (disch := decide) only [encodeHeader, Header.ofOp, field, fieldNat, getLsbD_extract,
      extract_append_low, extract_append_high]
    simp [ofBool_beq_one, Nat.mod_eq_of_lt, h]
  | setHashRow | evict | swapVersion | lookup | hash | map | wayLookup | probe =>
    simp only [Instr.wellFormed, Bool.and_eq_true, fits8_iff] at h
    simp [decodeFields, encodeHeader, Header.ofOp, Instr.opcode, encodePayload, decodeSetHashRow,
      decodeEvict, decodeSwapVersion, decodeLookup, decodeHash, decodeMap, decodeWayLookup, decodeProbe,
      Nat.mod_eq_of_lt, h]

/-! ## From a frame to its command and back -/

/-- `i` is well formed and is written as a header with the fields `h` and the words `p` after it. -/
def Instr.IsWrittenAs (i : Instr) (h : Header) (p : List Word) : Prop :=
  encodeHeader i = h ∧ encodePayload i = p ∧ i.wellFormed = true

theorem isWrittenAs_of_ifReservedZero {b : Bool} {i j : Instr} {h : Header} {p : List Word}
    (hi : b = true → i.IsWrittenAs h p) (hd : ifReservedZero b i = .ok j) : j.IsWrittenAs h p := by
  obtain ⟨hb, rfl⟩ := ifReservedZero_eq_ok.mp hd
  exact hi hb

/-- What the decoder accepts is written as it was read: the opcode is one of the table, the word count is the
one of its row, and every reserved field is zero, so the slices that were read join to the word again. -/
theorem isWrittenAs_of_decodeFields {h : Header} {p : List Word} {i : Instr}
    (hd : decodeFields h p = .ok i) : i.IsWrittenAs h p := by
  obtain ⟨op, a, r, c, v, kw, imm⟩ := h
  simp only [decodeFields] at hd
  split at hd
  case h_16 => cases hd
  all_goals
    rename_i hop
    obtain rfl := eq_ofNat_of_toNat_eq hop
    simp only [decodeCfgWay, decodeSetHashRow, decodeInsert, decodeEvict, decodeStashWrite,
      decodeSwapVersion, decodeSetParityGroup, decodeSetMissDefault, decodeSetShiftcount, decodeLookup,
      decodeHash, decodeMap, decodeWayLookup, decodeProbe, decodePcheck] at hd
    split at hd
    case h_2 => cases hd
    refine isWrittenAs_of_ifReservedZero (fun hzero => ?_) hd
    simp only [Bool.and_eq_true, beq_iff_eq, BitVec.ofNat_eq_ofNat] at hzero
    refine ⟨?header, ?payload, ?wellFormed⟩
    case header =>
      simp [encodeHeader, Header.ofOp, Instr.opcode, hzero, zero_append_low_of_high_zero]
    case payload =>
      simp (disch := decide) only [encodePayload, wideLow_wide, wideHigh_wide, HashLayout.bit_ofBit,
        SlotKind.bit_ofBit, ofBool_getLsbD, ofNat_fieldNat, field, ← hzero, extract_append_extract,
        extract_all]
    case wellFormed => simp [Instr.wellFormed]

/-- Settles O2: the fields build the header that they were read from. -/
theorem encodeOfDecode : Obligations.EncodeOfDecode := by
  intro f i hd
  obtain ⟨hheader, hpayload, hwf⟩ := isWrittenAs_of_decodeFields hd
  refine ⟨?_, hwf⟩
  rw [encode, hheader, hpayload, Header.build_parse]

/-- Settles O4: the three frames are those of their commands. -/
theorem writtenFramesDecode : Obligations.WrittenFramesDecode :=
  ⟨decodeOfEncode (.cfgWay 0 32 32 1 3 4 2 6 16 .v2) rfl, decodeOfEncode (.evict 0 1 1) rfl,
    decodeOfEncode (.setParityGroup 1 true .stash 0 3 2 8 0xFFFF 0x01FF true) rfl⟩

end Sys2Proof
end

section
/-! SUPPORT. The opcode table and the decoder accept the same frames (30_encoding.md R90): the masks of a row
are the fields that its decoder compares with zero. -/

namespace Sys2Proof

/-! ## Masks and fields -/

/-- A header agrees with `p` under a mask when each of its fields does. -/
theorem Header.build_and_eq_iff (h : Header) (m p : Word) :
    h.build &&& m = p ↔
      h.op &&& field m 0 8 = field p 0 8 ∧ h.a &&& field m 8 8 = field p 8 8 ∧
      h.r &&& field m 16 8 = field p 16 8 ∧ h.c &&& field m 24 8 = field p 24 8 ∧
      h.v &&& field m 32 8 = field p 32 8 ∧ h.kw &&& field m 40 8 = field p 40 8 ∧
      h.imm &&& field m 48 16 = field p 48 16 := by
  have hfields : h.build &&& m = p ↔ Header.parse (h.build &&& m) = Header.parse p :=
    ⟨congrArg _, fun e => by rw [← Header.build_parse (h.build &&& m), e, Header.build_parse]⟩
  rw [hfields]
  conv_rhs => rw [← Header.parse_build h]
  simp [Header.parse, field, BitVec.extractLsb'_and]

theorem and_byteMask (x : BitVec 8) : x &&& 255#8 = x := BitVec.and_allOnes

theorem and_immMask (x : BitVec 16) : x &&& 65535#16 = x := BitVec.and_allOnes

/-- A value is zero under the mask of one field exactly when the field is zero. -/
theorem and_eq_zero_iff_extract {n : Nat} (x : BitVec n) {m : BitVec n} {lo k : Nat}
    (hm : ∀ i < n, m.getLsbD i = decide (lo ≤ i ∧ i < lo + k)) :
    x &&& m = 0#n ↔ x.extractLsb' lo k = 0#k := by
  rw [BitVec.eq_of_getLsbD_eq_iff, BitVec.eq_of_getLsbD_eq_iff]
  simp only [BitVec.getLsbD_and, BitVec.getLsbD_extractLsb', BitVec.getLsbD_zero]
  constructor
  · intro h i hi
    by_cases hn : lo + i < n
    · simpa [hm _ hn, hi] using h (lo + i) hn
    · simp [BitVec.getLsbD_of_ge x (lo + i) (by omega)]
  · intro h i hi
    rw [hm i hi]
    by_cases hin : lo ≤ i ∧ i < lo + k
    · have hbit := h (i - lo) (by omega)
      rw [Nat.add_sub_cancel' hin.1] at hbit
      have hzero : x.getLsbD i = false := by simpa [show i - lo < k by omega] using hbit
      simp [hzero]
    · simp [hin]

/-- `imm[15:8]`, reserved in `SET_SHIFTCOUNT` (30_encoding.md R83). -/
theorem and_mask_8_8 (x : BitVec 16) : x &&& 0xFF00#16 = 0#16 ↔ x.extractLsb' 8 8 = 0#8 :=
  and_eq_zero_iff_extract x (by decide)

/-- `W1[63:57]`, reserved in `CFG_WAY` (R75). -/
theorem and_mask_57_7 (w : Word) : w &&& 0xFE00000000000000#64 = 0#64 ↔ field w 57 7 = 0#7 :=
  and_eq_zero_iff_extract w (by decide)

/-- `W5[63:48]`, reserved in `INSERT` (R77). -/
theorem and_mask_48_16 (w : Word) : w &&& 0xFFFF000000000000#64 = 0#64 ↔ field w 48 16 = 0#16 :=
  and_eq_zero_iff_extract w (by decide)

/-- `W5[63:25]`, reserved in `STASH_WRITE` (R79). -/
theorem and_mask_25_39 (w : Word) : w &&& 0xFFFFFFFFFE000000#64 = 0#64 ↔ field w 25 39 = 0#39 :=
  and_eq_zero_iff_extract w (by decide)

/-- `W1[7:3]`, reserved in `SET_PARITY_GROUP` (R81). -/
theorem and_mask_3_5 (w : Word) : w &&& 0xF8#64 = 0#64 ↔ field w 3 5 = 0#5 :=
  and_eq_zero_iff_extract w (by decide)

/-- The high half of a word, reserved in `SET_MISS_DEFAULT` and `PCHECK` (R82, R89). -/
theorem and_mask_32_32 (w : Word) : w &&& 0xFFFFFFFF00000000#64 = 0#64 ↔ field w 32 32 = 0#32 :=
  and_eq_zero_iff_extract w (by decide)

theorem payloadFits_nil_iff {p : List Word} : payloadFits [] p = true ↔ p = [] := by
  cases p <;> simp [payloadFits]

theorem payloadFits_cons_iff {m : Word} {ms p : List Word} :
    payloadFits (m :: ms) p = true ↔
      ∃ w ws, p = w :: ws ∧ w &&& m = 0#64 ∧ payloadFits ms ws = true := by
  cases p <;> simp [payloadFits]

/-! ## Rows and decoders -/

/-- The frames that fit a row are those of its opcode that the decoder accepts. The masks of the row turn into
fields that are zero; for a payload of the row's word count these are the ones its decoder compares, and any
other payload neither fits nor is accepted. -/
theorem fits_build_iff : ∀ row ∈ opcodeTable, ∀ (h : Header) (p : List Word),
    row.fits ⟨h.build, p⟩ = true ↔ h.op = field row.pattern 0 8 ∧ ∃ i, decodeFields h p = .ok i := by
  simp only [opcodeTable, List.forall_mem_cons]
  refine ⟨?_, ?_, ?_, ?_, ?_, ?_, ?_, ?_, ?_, ?_, ?_, ?_, ?_, ?_, ?_, fun _ hrow => nomatch hrow⟩
  all_goals
    rintro ⟨op, a, r, c, v, kw, imm⟩ p
    simp only [OpcodeRow.fits, Header.build_and_eq_iff, Bool.and_eq_true, beq_iff_eq, field,
      BitVec.reduceExtractLsb', BitVec.ofNat_eq_ofNat, and_byteMask, and_immMask, BitVec.and_zero,
      true_and, and_true, and_assoc, payloadFits_cons_iff, payloadFits_nil_iff]
    refine and_congr_right ?_
    rintro rfl
    simp only [decodeFields, BitVec.reduceToNat, decodeCfgWay, decodeSetHashRow, decodeInsert,
      decodeEvict, decodeStashWrite, decodeSwapVersion, decodeSetParityGroup, decodeSetMissDefault,
      decodeSetShiftcount, decodeLookup, decodeHash, decodeMap, decodeWayLookup, decodeProbe,
      decodePcheck]
    split
    case h_1 =>
      simp [and_mask_8_8, and_mask_57_7, and_mask_48_16, and_mask_25_39, and_mask_3_5, and_mask_32_32,
        and_assoc]
    case h_2 hcount => exact iff_of_false (by simp_all) (by simp)

/-- Every command has a row. -/
theorem exists_row_of_opcode (i : Instr) : ∃ row ∈ opcodeTable, i.opcode = field row.pattern 0 8 := by
  cases i <;> (rw [Instr.opcode]; decide)

@[simp] theorem encodeHeader_op (i : Instr) : (encodeHeader i).op = i.opcode := by cases i <;> rfl

/-- A frame fits a row of the table exactly when the decoder accepts it. -/
theorem Frame.legal_iff (f : Frame) : f.legal = true ↔ ∃ i, decode f = .ok i := by
  have hfits : ∀ row ∈ opcodeTable, row.fits f = true ↔
      (Header.parse f.header).op = field row.pattern 0 8 ∧ ∃ i, decode f = .ok i := by
    intro row hrow
    simpa [decode] using fits_build_iff row hrow (.parse f.header) f.payload
  rw [Frame.legal, List.any_eq_true]
  constructor
  · rintro ⟨row, hrow, hfit⟩
    exact ((hfits row hrow).mp hfit).2
  · rintro ⟨i, hd⟩
    obtain ⟨hheader, -⟩ := isWrittenAs_of_decodeFields hd
    obtain ⟨row, hrow, hop⟩ := exists_row_of_opcode i
    exact ⟨row, hrow, (hfits row hrow).mpr ⟨by rw [← hheader, encodeHeader_op, hop], i, hd⟩⟩

/-- Settles O3: what the decoder does not accept it rejects, and the step on it is a refusal. -/
theorem illegalFramesRefused : Obligations.IllegalFramesRefused := by
  intro f
  refine ⟨f.legal_iff.mp, fun hillegal => ?_⟩
  obtain ⟨e, hd⟩ : ∃ e, decode f = .error e := by
    cases hd : decode f with
    | ok i => simp [f.legal_iff.mpr ⟨i, hd⟩] at hillegal
    | error e => exact ⟨e, rfl⟩
  refine ⟨⟨e, hd⟩, fun s rest hp => ?_⟩
  rw [Machine.step_illegal hp hd, Machine.State.takeCommand, Machine.State.advance, hp]
  rfl

end Sys2Proof
end

section
/-! SUPPORT. The hash and its commands (40_hash.md): what each bit of a hash depends on, the laws that follow
from it bit by bit, and what `CFG_WAY`, `SET_HASH_ROW` and `HASH` leave behind. -/

namespace Sys2Proof.Machine

/-! ## Bits of a hash -/

/-- The hash reads the way's record and matrix, and nothing else of the state. -/
theorem State.hashFn_congr {s t : State} {w : Nat} (hcfg : s.wayCfgAt w = t.wayCfgAt w)
    (hmatrix : ∀ i, s.matrixAt w i = t.matrixAt w i) (key : Wide) : s.hashFn w key = t.hashFn w key := by
  simp only [State.hashFn, hcfg, hmatrix]

theorem State.hashFn_getLsbD_of_hw_le {s : State} {w i : Nat} (h : (s.wayCfgAt w).hw ≤ i) (key : Wide) :
    (s.hashFn w key).getLsbD i = false := by
  simp [State.hashFn_getLsbD, Nat.not_lt.mpr h]

theorem State.hashFn_getLsbD_of_row_zero {s : State} {w i : Nat} (h : s.matrixAt w i = 0) (key : Wide) :
    (s.hashFn w key).getLsbD i = false := by
  simp [State.hashFn_getLsbD, h, xorUpTo_false]

/-- A row with the one bit `i`, below the key width, selects key bit `i`. -/
theorem xorUpTo_two_pow_row (key : Wide) {i kw : Nat} (hi : i < 128) (hkw : i < kw) :
    xorUpTo (fun j => (BitVec.ofNat 128 (2 ^ i)).getLsbD j && key.getLsbD j) kw = key.getLsbD i := by
  have hrow : ∀ j, (BitVec.ofNat 128 (2 ^ i)).getLsbD j = decide (j = i) := fun j => by
    rw [BitVec.getLsbD_ofNat, Nat.testBit_two_pow]
    grind
  simp only [hrow, xorUpTo_single, hkw, decide_true, Bool.true_and]

/-- Settles O23: the XOR of the selected key bits is the parity of their number. -/
theorem hashBitsAreSelectedXor : Obligations.HashBitsAreSelectedXor := by
  refine ⟨fun s w key i hhw => ?_, fun s t w key hcfg hmatrix => State.hashFn_congr hcfg hmatrix key⟩
  rw [State.hashFn_getLsbD, xorUpTo_eq_odd]
  simp only [Bool.and_eq_true, decide_eq_true_eq]
  exact and_iff_right_of_imp fun ⟨hi, _⟩ => hi.trans_le hhw

/-! ## Laws of the hash -/

theorem State.hashFn_xor (s : State) (w : Nat) (a b : Wide) :
    s.hashFn w (a ^^^ b) = s.hashFn w a ^^^ s.hashFn w b := by
  apply BitVec.eq_of_getLsbD_eq
  intro i _
  simp only [BitVec.getLsbD_xor, State.hashFn_getLsbD, Bool.and_xor_distrib_left, xorUpTo_xor]

theorem State.hashFn_zero (s : State) (w : Nat) : s.hashFn w 0 = 0 := by
  simpa using s.hashFn_xor w 0 0

theorem State.hashFn_of_matrix_zero {s : State} {w : Nat} (h : ∀ i, i < 64 → s.matrixAt w i = 0)
    (key : Wide) : s.hashFn w key = 0 := by
  apply BitVec.eq_of_getLsbD_eq
  intro i hi
  simp [State.hashFn_getLsbD_of_row_zero (h i hi)]

theorem State.hashFn_getLsbD_of_identity {s : State} {w : Nat} (hkw : (s.wayCfgAt w).hw ≤ (s.wayCfgAt w).kw)
    (hhw : (s.wayCfgAt w).hw ≤ 64)
    (h : ∀ j, j < (s.wayCfgAt w).hw → s.matrixAt w j = BitVec.ofNat 128 (2 ^ j)) (key : Wide) (i : Nat) :
    (s.hashFn w key).getLsbD i = (decide (i < (s.wayCfgAt w).hw) && key.getLsbD i) := by
  by_cases hi : i < (s.wayCfgAt w).hw
  · have hi64 : i < 64 := hi.trans_le hhw
    rw [State.hashFn_getLsbD, h i hi, xorUpTo_two_pow_row key (by omega) (by omega)]
    simp [hi64]
  · simp [State.hashFn_getLsbD_of_hw_le (Nat.le_of_not_lt hi), hi]

/-! ## The commands -/

/-- Settles O25: the record is set, then the rows of the way are cleared. -/
theorem cfgWayCompletes : Obligations.CfgWayCompletes := by
  intro s w kw hw rl rw bl bw vl vw hc
  refine ⟨(written (.cfgWay w kw hw rl rw bl bw vl vw .v2) s).respond ⟨.ok, .empty⟩, exec_effect hc id,
    ?frame, ?record, ?matrix⟩
  case frame =>
    obtain ⟨m, hm, -⟩ :=
      (s.setWayCfg w ⟨true, kw, hw, rl, rw, bl, bw, vl, vw, .v2⟩).clearMatrix_spec w
    rw [written, hm]
    rfl
  case record => simp [written]
  case matrix => simp [written]

/-- Settles O27: the effect is the write of the row. -/
theorem setHashRowCompletes : Obligations.SetHashRowCompletes := by
  intro s w i kw sel hc
  exact ⟨(s.setMatrix w i sel).respond ⟨.ok, .empty⟩, exec_effect hc id, rfl, by simp⟩

/-- Settles O28: the effect is the answer alone, and the bits at and above `HW` are 0 by the function. -/
theorem hashCompletes : Obligations.HashCompletes := by
  intro s w kw key hc _
  exact ⟨s.hashFn w key, exec_effect hc id, rfl, fun i hi => State.hashFn_getLsbD_of_hw_le hi key⟩

/-- After a `CFG_WAY` that is answered `OK` every key hashes to 0 (40_hash.md R106 (c)). -/
theorem hashFn_after_cfgWay {s t : State} {w kw hw rl rw bl bw vl vw : Nat}
    (h : exec (.cfgWay w kw hw rl rw bl bw vl vw .v2) s = .next t)
    (hok : t.responses = s.responses ++ [⟨.ok, .empty⟩]) (key : Wide) : t.hashFn w key = 0 := by
  obtain ⟨hc, -, -⟩ := exec_ok h hok
  obtain ⟨u, hu, -, -, hmatrix⟩ := cfgWayCompletes s w kw hw rl rw bl bw vl vw hc
  cases h.symm.trans hu
  exact State.hashFn_of_matrix_zero (fun i hi => by simp [hmatrix, hi]) key

/-- Settles O24, law by law. -/
theorem hashLaws : Obligations.HashLaws := by
  refine ⟨State.hashFn_xor, State.hashFn_zero, ?zeroRow, ?fresh, ?identity⟩
  case zeroRow =>
    intro s w i key hrow
    exact State.hashFn_getLsbD_of_row_zero hrow key
  case fresh =>
    intro s t w kw hw rl rw bl bw vl vw key h hok
    exact hashFn_after_cfgWay h hok key
  case identity =>
    intro s w key i hkw hhw hrows
    exact State.hashFn_getLsbD_of_identity hkw hhw hrows key i

end Sys2Proof.Machine
end

section
/-! SUPPORT. The coordinate of a hash (41_bank_map.md): its row, bank and VPN bit by bit, when row and bank are
a slot of the array, and what `MAP` answers. -/

namespace Sys2Proof.Machine

/-! ## Bits of a coordinate -/

theorem WayCfg.coord_row_testBit (c : WayCfg) (h : Word) (i : Nat) :
    (c.coord h).row.testBit i = (decide (i < c.rowW) && h.getLsbD (c.rowLo + i)) := slice_testBit ..

theorem WayCfg.coord_bank_testBit (c : WayCfg) (h : Word) (i : Nat) :
    (c.coord h).bank.testBit i = (decide (i < c.bankW) && h.getLsbD (c.bankLo + i)) := slice_testBit ..

/-- The VPN field has 16 bits (00_scope.md R6): of a wider slice it holds the low 16. -/
theorem WayCfg.coord_vpn_getLsbD (c : WayCfg) (h : Word) {i : Nat} (hi : i < 16) :
    (c.coord h).vpn.getLsbD i = (decide (i < c.vpnW) && h.getLsbD (c.vpnLo + i)) := by
  rw [WayCfg.coord, BitVec.getLsbD_ofNat, slice_testBit, decide_eq_true hi, Bool.true_and]

/-! ## The command -/

/-- What the range test of `map_fn` leaves (41_bank_map.md R120): the coordinate is a slot of the array. -/
theorem coord_inArray_of_not_rangeCause {s : State} {w : Nat} {h : Word} (hr : ¬ s.RangeCause (.map w h)) :
    ((s.wayCfgAt w).coord h).row < s.params.nr ∧ ((s.wayCfgAt w).coord h).bank < s.params.nb := by
  obtain ⟨hrow, hbank⟩ := not_or.mp hr
  exact ⟨Nat.lt_of_not_le hrow, Nat.lt_of_not_le hbank⟩

/-- Settles O29: the effect is the answer alone, with the coordinate of the hash in the way. -/
theorem mapCompletes : Obligations.MapCompletes := by
  intro s w h hc hr
  obtain ⟨hrow, hbank⟩ := coord_inArray_of_not_rangeCause hr
  exact ⟨(s.wayCfgAt w).coord h, exec_effect hc hr, hrow, hbank,
    WayCfg.coord_row_testBit _ h, WayCfg.coord_bank_testBit _ h, fun _ => WayCfg.coord_vpn_getLsbD _ h⟩

end Sys2Proof.Machine
end

section
/-! SUPPORT. The slots of a way (42_way.md): when an entry misses and when its enables cover its mask, what
`INSERT` and `EVICT` leave in their slot, and what `WAY_LOOKUP` then answers. -/

namespace Sys2Proof.Machine

/-! ## The verdict on one entry -/

theorem wayMatch_of_matches {e : RamEntry} {key : Wide} {ver : Version} (h : e.Matches key ver) :
    wayMatch e key ver = some e.vpn := if_pos ((e.hits_iff key ver).mpr h)

theorem wayMatch_of_not_matches {e : RamEntry} {key : Wide} {ver : Version} (h : ¬ e.Matches key ver) :
    wayMatch e key ver = none := if_neg ((not_congr (e.hits_iff key ver)).mpr h)

/-- Settles O30: the hit condition is the match bit by bit. -/
theorem wayMatchCondition : Obligations.WayMatchCondition :=
  fun _ _ _ => ⟨wayMatch_of_matches, wayMatch_of_not_matches⟩

/-- An entry that is not enabled never matches (10_state.md R25). -/
theorem RamEntry.not_matches_of_disabled {e : RamEntry} (h : e.ne = 0) (key : Wide) (ver : Version) :
    ¬ e.Matches key ver := fun ⟨hne, _⟩ => hne h

theorem RamEntry.not_matches_of_ver_ne {e : RamEntry} {ver : Version} (h : e.ver ≠ ver) (key : Wide) :
    ¬ e.Matches key ver := fun ⟨_, hver, _⟩ => h hver

/-- When the enables cover the mask no bit of the mask is left out of the comparison. -/
theorem RamEntry.matches_iff_of_covered {e : RamEntry} (hne : e.ne ≠ 0)
    (hcover : ∀ j, j < 128 → e.mask.getLsbD j = true → e.ne.getLsbD (j / 4) = true) (key : Wide) :
    e.Matches key e.ver ↔ key &&& e.mask = e.data &&& e.mask := by
  rw [and_eq_and_iff]
  constructor
  · rintro ⟨-, -, hbits⟩ j hj hmask
    exact hbits j hj hmask (hcover j hj hmask)
  · intro hbits
    exact ⟨hne, rfl, fun j hj hmask _ => hbits j hj hmask⟩

theorem wayMatch_of_covered {e : RamEntry} (hne : e.ne ≠ 0)
    (hcover : ∀ j, j < 128 → e.mask.getLsbD j = true → e.ne.getLsbD (j / 4) = true) (key : Wide) :
    wayMatch e key e.ver = if key &&& e.mask = e.data &&& e.mask then some e.vpn else none := by
  split
  · exact wayMatch_of_matches ((e.matches_iff_of_covered hne hcover key).mpr ‹_›)
  · exact wayMatch_of_not_matches ((not_congr (e.matches_iff_of_covered hne hcover key)).mpr ‹_›)

/-! ## The commands -/

/-- Settles O31: the effect is the write of the slot. -/
theorem insertCompletes : Obligations.InsertCompletes := by
  intro s w r b v mw mask dw data vpn ne ctl hc hr
  exact ⟨(s.setRam w r b ⟨mask, data, vpn, ne, ctl, v⟩).respond ⟨.ok, .empty⟩, exec_effect hc hr, rfl,
    by simp⟩

/-- Settles O32: the effect is the write of the slot's own entry with no nibble enabled. -/
theorem evictCompletes : Obligations.EvictCompletes := by
  intro s w r b hc hr
  refine ⟨(s.setRam w r b { s.ramAt w r b with ne := 0 }).respond ⟨.ok, .empty⟩, exec_effect hc hr, rfl,
    by simp, fun w' r' b' hother => ?_⟩
  simp [hother]

/-- Settles O33: the effect is the answer alone, and the verdict is the match bit by bit. -/
theorem wayLookupCompletes : Obligations.WayLookupCompletes := by
  intro s w r b v kw key hc hr
  exact ⟨wayMatch (s.ramAt w r b) key v, exec_effect hc hr, wayMatchCondition _ key v⟩

/-! ## After an `INSERT` -/

/-- No cause of `ConfigError` reads a slot or an output. -/
theorem configCause_setRam_respond (i : Instr) (s : State) (w r b : Nat) (e : RamEntry) (a : Response) :
    ((s.setRam w r b e).respond a).ConfigCause i ↔ s.ConfigCause i := by
  cases i <;> exact Iff.rfl

section
variable {s t : State} {w r b kw : Nat} {v : Version} {mask data : Wide} {vpn : BitVec 16}
  {ne : BitVec 32} {ctl : BitVec 8}

/-- `WAY_LOOKUP` checks no more of its way, slot and version than `INSERT` does. -/
theorem not_configCause_wayLookup_of_insert {key : Wide}
    (hc : ¬ s.ConfigCause (.insert w r b v kw mask kw data vpn ne ctl)) (hkey : ¬ OverWide key kw) :
    ¬ s.ConfigCause (.wayLookup w r b v kw key) := by
  simp only [State.ConfigCause, not_or] at hc ⊢
  obtain ⟨hway, -, hkw, -, -, -, hver⟩ := hc
  exact ⟨hway, hkw, hkey, hver⟩

/-- After an `INSERT` answered `OK` a `WAY_LOOKUP` of its slot, when no cause of `ConfigError` held for it
before, answers the verdict on the entry inserted. -/
theorem exec_wayLookup_after_insert {v' : Version} {key : Wide}
    (h : exec (.insert w r b v kw mask kw data vpn ne ctl) s = .next t)
    (hok : t.responses = s.responses ++ [⟨.ok, .empty⟩])
    (hc' : ¬ s.ConfigCause (.wayLookup w r b v' kw key)) :
    exec (.wayLookup w r b v' kw key) t =
      .next (t.respond ⟨.ok, .wayHit (wayMatch ⟨mask, data, vpn, ne, ctl, v⟩ key v')⟩) := by
  obtain ⟨-, hr, heffect⟩ := exec_ok h hok
  obtain rfl := complete_eq_next.mp heffect
  rw [exec_effect ((not_congr (configCause_setRam_respond ..)).mpr hc') hr]
  simp [effect, complete]

end

/-- Settles O34: the enables cover the mask, so the verdict on the entry inserted is agreement on the mask. -/
theorem insertThenLookupRoundTrip : Obligations.InsertThenLookupRoundTrip := by
  intro s t w r b v kw mask data key vpn ne ctl h hok hne hcover hkey
  obtain ⟨hc, -, -⟩ := exec_ok h hok
  rw [exec_wayLookup_after_insert h hok (not_configCause_wayLookup_of_insert hc hkey),
    wayMatch_of_covered (e := ⟨mask, data, vpn, ne, ctl, v⟩) hne hcover key]

/-- Settles O35: the second `INSERT` replaced the entry, and its version is not the first one's. -/
theorem versionIsolation : Obligations.VersionIsolation := by
  intro s t u w r b v₁ v₂ kw mask₁ data₁ mask₂ data₂ key vpn₁ vpn₂ ne₁ ne₂ ctl₁ ctl₂ hv h₁ hok₁ h₂ hok₂ hkey
  obtain ⟨hc₁, -, heffect⟩ := exec_ok h₁ hok₁
  obtain ⟨hc₂, -, -⟩ := exec_ok h₂ hok₂
  have hold : ¬ t.ConfigCause (.wayLookup w r b v₁ kw key) := by
    obtain rfl := complete_eq_next.mp heffect
    rw [configCause_setRam_respond]
    exact not_configCause_wayLookup_of_insert hc₁ hkey
  have hnew : ¬ t.ConfigCause (.wayLookup w r b v₂ kw key) := not_configCause_wayLookup_of_insert hc₂ hkey
  refine ⟨?_, exec_wayLookup_after_insert h₂ hok₂ hnew⟩
  rw [exec_wayLookup_after_insert h₂ hok₂ hold,
    wayMatch_of_not_matches (RamEntry.not_matches_of_ver_ne (Ne.symm hv) key)]

/-! ## After an `EVICT` -/

theorem ramAt_disabled_after_evict {s t : State} {w r b : Nat} (h : exec (.evict w r b) s = .next t)
    (hok : t.responses = s.responses ++ [⟨.ok, .empty⟩]) : (t.ramAt w r b).ne = 0 := by
  obtain ⟨hc, hr, -⟩ := exec_ok h hok
  obtain ⟨u, hu, -, hslot, -⟩ := evictCompletes s w r b hc hr
  cases h.symm.trans hu
  rw [hslot]

/-- Settles O36: the slot is not enabled, and a way hit is at a slot whose entry matches. -/
theorem evictedSlotMisses : Obligations.EvictedSlotMisses := by
  intro s t w r b h hok key v
  have hmiss := RamEntry.not_matches_of_disabled (ramAt_disabled_after_evict h hok) key v
  refine ⟨wayMatch_of_not_matches hmiss, fun hit hhit => ?_⟩
  obtain ⟨-, hmatch, rfl⟩ := State.wayHit_eq_some.mp hhit
  rintro ⟨rfl, rfl⟩
  exact hmiss hmatch

end Sys2Proof.Machine
end

section
/-! SUPPORT. The stash (43_stash.md): what one slot gives a probe, when a probe finds none, and what
`STASH_WRITE` and `PROBE` answer and write. -/

namespace Sys2Proof.Machine

/-! ## The verdict on one slot -/

theorem State.stashHitAt_of_matches {s : State} {r c : Nat} {key : Wide} {av : Version}
    (h : (s.stashAt r c).Matches key av) :
    s.stashHitAt r key av c = some ⟨r, c, (s.stashAt r c).rbs, (s.stashAt r c).idc⟩ :=
  if_pos ((StashEntry.hits_iff _ key av).mpr h)

theorem State.stashHitAt_eq_none {s : State} {r c : Nat} {key : Wide} {av : Version} :
    s.stashHitAt r key av c = none ↔ ¬ (s.stashAt r c).Matches key av := by
  rw [← StashEntry.hits_iff]
  simp [State.stashHitAt]

/-! ## The probe of one row -/

/-- The search stops at the lowest slot with a hit (43_stash.md R152). -/
theorem State.probeFn_of_lowest {s : State} {r c : Nat} {key : Wide} {av : Version} (hc : c < s.params.ns)
    (hmatch : (s.stashAt r c).Matches key av)
    (hlowest : ∀ c', c' < c → ¬ (s.stashAt r c').Matches key av) :
    s.probeFn r key av = some ⟨r, c, (s.stashAt r c).rbs, (s.stashAt r c).idc⟩ :=
  findSome_range _ hc (State.stashHitAt_of_matches hmatch) fun c' h =>
    State.stashHitAt_eq_none.mpr (hlowest c' h)

theorem State.probeFn_eq_none {s : State} {r : Nat} {key : Wide} {av : Version} :
    s.probeFn r key av = none ↔ ∀ c, c < s.params.ns → ¬ (s.stashAt r c).Matches key av := by
  simp only [State.probeFn, List.findSome?_eq_none_iff, List.mem_range, State.stashHitAt_eq_none]

/-- Settles O38: a probe searches the slots of its row in ascending order. -/
theorem probeLowestMatchingSlot : Obligations.ProbeLowestMatchingSlot :=
  fun _ _ _ _ => ⟨fun _ => State.probeFn_of_lowest, State.probeFn_eq_none⟩

/-! ## The commands -/

/-- Settles O37: the effect is the write of the slot. -/
theorem stashWriteCompletes : Obligations.StashWriteCompletes := by
  intro s r c v mm md idc rbs ben hc hr
  exact ⟨(s.setStash r c ⟨mm, md, idc, rbs, ben, v⟩).respond ⟨.ok, .empty⟩, exec_effect hc hr, rfl,
    by simp⟩

/-- Settles O39: the effect is the answer alone, with the probe of the row under `ACTIVE_VERSION`. -/
theorem probeCompletes : Obligations.ProbeCompletes :=
  fun _ _ _ _ hc hr => exec_effect hc hr

end Sys2Proof.Machine
end

section
/-! SUPPORT. The parity validator (44_parity.md): what a flip does to a verdict, the two parity commands, the
scrubber, a soft error seen through the image words, and that parity is an observer: no lookup and no response
depends on it. -/

namespace Sys2Proof.Machine

/-! ## The verdict -/

theorem parity_eq_false_iff {n : Nat} (v : BitVec n) : parity v = false ↔ ones v % 2 = 0 := by
  rw [parity, xorUpTo_eq_odd, decide_eq_false_iff_not, Nat.mod_two_not_eq_one, ones]

/-- The parity of one bit under a mask is the mask's bit there. -/
theorem parity_oneBit_and {n i : Nat} (hi : i < n) (mask : BitVec n) :
    parity (oneBit n i &&& mask) = mask.getLsbD i := by
  have hbits : ∀ j, j < n →
      (oneBit n i &&& mask).getLsbD j = (decide (j = i) && mask.getLsbD j) := by
    intro j hj
    rw [BitVec.getLsbD_and, oneBit_getLsbD, decide_eq_true hj, Bool.true_and, decide_eq_decide.mpr eq_comm]
  rw [parity, xorUpTo_congr hbits, xorUpTo_single, decide_eq_true hi, Bool.true_and]

/-- Parity is linear, so flipping the bits `d` changes a verdict by the parity of the masked flips. -/
theorem checkOk_xor (g : ParityGroup) (bits d : BitVec 32) :
    checkOk g (bits ^^^ d) = (checkOk g bits ^^ parity (d &&& g.mask)) := by
  have hmask : (bits ^^^ d) &&& g.mask = (bits &&& g.mask) ^^^ (d &&& g.mask) := by
    apply BitVec.eq_of_getLsbD_eq
    intro j _
    simp only [BitVec.getLsbD_and, BitVec.getLsbD_xor, Bool.and_xor_distrib_right]
  have hverdict : ∀ p q e : Bool, ((p ^^ q) == e) = ((p == e) ^^ q) := by decide
  rw [checkOk, checkOk, hmask, parity_xor, hverdict]

/-- Settles O45: the masked flips decide, and under an empty mask there is no 1 bit to count. -/
theorem checkLaws : Obligations.CheckLaws := by
  intro g bits
  have hflip : ∀ i, i < 32 →
      checkOk g (bits ^^^ BitVec.ofNat 32 (2 ^ i)) = (checkOk g bits ^^ g.mask.getLsbD i) := by
    intro i hi
    rw [← parity_oneBit_and hi g.mask]
    exact checkOk_xor g bits (oneBit 32 i)
  refine ⟨fun i hi hm => ?_, fun i hi hm => ?_, fun d hd => ?_, fun hm => ?_⟩
  · rw [hflip i hi, hm, Bool.xor_true]
  · rw [hflip i hi, hm, Bool.xor_false]
  · rw [checkOk_xor, (parity_eq_false_iff _).mpr hd, Bool.xor_false]
  · have hzero : parity (bits &&& g.mask) = false := by
      rw [hm, show bits &&& 0 = 0 from BitVec.and_zero]
      rfl
    rw [checkOk, hzero, beq_iff_eq, eq_comm]

/-! ## The commands -/

/-- Settles O44: neither error condition holds of a valid group, and the effect follows the verdict. -/
theorem pcheckCompletes : Obligations.PcheckCompletes := by
  intro s g bits hg hv
  have heffect : exec (.pcheck g bits) s = effect (.pcheck g bits) s :=
    exec_effect (fun ⟨_, hinvalid⟩ => by simp [hv] at hinvalid) (Nat.not_le.mpr hg)
  rw [heffect, Ne, ← checkOk_iff]
  exact ⟨fun hok => if_pos hok, fun hfail => if_neg hfail⟩

/-- Settles O43: the effect is the write of the group, of the operands or of all zeros. -/
theorem setParityGroupCompletes : Obligations.SetParityGroupCompletes := by
  intro s g valid kind way row col wsel lo hi expected hc hr
  refine ⟨_, exec_effect hc hr, rfl, ?_, ?_, ?_⟩
  · rintro rfl
    simp
  · rintro rfl
    simp [ParityGroup.zero]
  · intro g' hne
    simp [hne]

/-! ## Who writes the groups -/

theorem flipBit_parityGroups (s : State) (slot : SlotRef) (wsel bit : Nat) :
    (s.flipBit slot wsel bit).parityGroups = s.parityGroups := by
  cases slot <;> rfl

/-- Settles O22, by what the agent of the first scheduled step does; of the commands only `SET_PARITY_GROUP`
writes groups (10_state.md R38). -/
theorem groupsWrittenBySoftwareOnly : Obligations.GroupsWrittenBySoftwareOnly := by
  intro s t hreset hcommand h
  cases hp : s.pending with
  | nil =>
    rw [step_idle hp] at h
    cases h
    rfl
  | cons input rest =>
    cases input with
    | command f =>
      cases hd : decode f with
      | ok i =>
        rw [step_command hp hd] at h
        have hopcode := hcommand f i (by simp [hp]) hd
        obtain ⟨-, -, -, -, -, hgroups, -⟩ := writersOfEachState i s.takeCommand t h
        exact Classical.byContradiction fun hne => hopcode (hgroups hne)
      | error e =>
        rw [step_illegal hp hd] at h
        cases h
        rfl
    | scrub g =>
      rw [step_scrub hp] at h
      obtain ⟨groups, rfl⟩ := scrubStep_next h
      rfl
    | corrupt slot wsel bit =>
      rw [step_corrupt hp] at h
      obtain ⟨-, rfl⟩ := corruptStep_next h
      exact flipBit_parityGroups s.advance slot wsel bit
    | reset => exact absurd (by simp [hp]) hreset

/-! ## The scrubber -/

theorem scrubStep_of_valid {s : State} {g : Nat} (hg : g < s.params.npg)
    (hv : (s.groupAt g).valid = true) :
    scrubStep g s = .next (if checkOk (s.groupAt g) (s.groupBits g) then s else s.report [g]) := by
  rw [scrubStep, decide_eq_true hg, hv, State.groupFails, hv]
  cases checkOk (s.groupAt g) (s.groupBits g) <;> rfl

theorem scrubStep_of_not_valid {s : State} {g : Nat}
    (h : s.params.npg ≤ g ∨ (s.groupAt g).valid = false) : scrubStep g s = .fault .scrubNotEnabled := by
  rw [scrubStep, if_neg]
  rw [Bool.and_eq_true, decide_eq_true_eq]
  rintro ⟨hg, hv⟩
  rcases h with h | h
  · omega
  · simp [hv] at h

theorem advance_eq {s : State} {input : Input} {rest : List Input} (h : s.pending = input :: rest) :
    s.advance = { s with pending := rest } := by
  rw [State.advance, h]
  rfl

/-- Settles O47: the scrubber's verdict is a check of the group's stored bits. -/
theorem scrubberStep : Obligations.ScrubberStep := by
  intro s g rest hp
  rw [step_scrub hp]
  refine ⟨fun hg hv => ?_, scrubStep_of_not_valid (s := s.advance)⟩
  rw [scrubStep_of_valid (s := s.advance) hg hv, Ne, ← checkOk_iff, advance_eq hp]
  exact ⟨fun hfail => congrArg _ (if_neg hfail), fun hok => congrArg _ (if_pos hok)⟩

/-- Settles O48: a scrubber step changes the event stream at most, which no command reads. -/
theorem scrubberChangesNoResponse : Obligations.ScrubberChangesNoResponse := by
  intro s t u g i hscrub hu
  obtain ⟨groups, rfl⟩ := scrubStep_next hscrub
  obtain ⟨r, ev, hr, -, hagain⟩ := outputsAreNeverRead i s u s.responses
    (s.events ++ groups.map Event.parityError) s.pending s.position hu
  exact ⟨_, hagain, hr.symm, rfl⟩

/-! ## A soft error -/

theorem corruptible_iff (s : State) (slot : SlotRef) (wsel bit : Nat) :
    s.corruptible slot wsel bit = true ↔ s.Backed slot wsel bit := by
  cases slot with
  | ram w r b =>
    simp only [State.corruptible, State.slotExists, State.ramInRange, Bool.and_eq_true,
      decide_eq_true_eq, ramBitBacked_iff, State.Backed, and_assoc]
    split <;> omega
  | stash r c =>
    simp only [State.corruptible, State.slotExists, State.stashInRange, Bool.and_eq_true,
      decide_eq_true_eq, stashBitBacked_iff, State.Backed, and_assoc]
    split_ifs <;> omega

theorem imageAt_setRam (s : State) (w r b : Nat) (e : RamEntry) (slot : SlotRef) (wsel : Nat) :
    (s.setRam w r b e).imageAt slot wsel =
      if slot = .ram w r b then e.image wsel else s.imageAt slot wsel := by
  cases slot with
  | ram w' r' b' =>
    simp only [State.imageAt, State.setRam_ramAt, SlotRef.ram.injEq]
    split <;> rfl
  | stash r c => rfl

theorem imageAt_setStash (s : State) (r c : Nat) (e : StashEntry) (slot : SlotRef) (wsel : Nat) :
    (s.setStash r c e).imageAt slot wsel =
      if slot = .stash r c then e.image wsel else s.imageAt slot wsel := by
  cases slot with
  | ram w r' b => rfl
  | stash r' c' =>
    simp only [State.imageAt, State.setStash_stashAt, SlotRef.stash.injEq]
    split <;> rfl

/-- Seen through the image words of every slot, a flip changes the named bit alone: a backed bit is one of
the bits that make up the word (10_state.md R35, R36). -/
theorem imageAt_flipBit {s : State} {slot : SlotRef} {wsel bit : Nat} (hvw : s.params.vw ≤ 8)
    (hb : s.Backed slot wsel bit) (slot' : SlotRef) {wsel' j : Nat} (hw' : wsel' < 10) (hj : j < 32) :
    ((s.flipBit slot wsel bit).imageAt slot' wsel').getLsbD j =
      ((s.imageAt slot' wsel').getLsbD j ^^ decide (slot' = slot ∧ wsel' = wsel ∧ j = bit)) := by
  cases slot with
  | ram w r b =>
    obtain ⟨-, -, -, hbit⟩ := hb
    rw [State.flipBit, imageAt_setRam]
    split
    · subst slot'
      rw [RamEntry.flip_image _ (by omega) (by omega) hw' hj]
      simp [State.imageAt]
    · rw [decide_eq_false fun h => absurd h.1 ‹_›, Bool.xor_false]
  | stash r c =>
    obtain ⟨-, -, hbit⟩ := hb
    rw [State.flipBit, imageAt_setStash]
    split
    · subst slot'
      rw [StashEntry.flip_image _ (by omega) (by omega) (by omega) (by omega) hw' hj]
      simp [State.imageAt]
    · rw [decide_eq_false fun h => absurd h.1 ‹_›, Bool.xor_false]

/-- A flip writes way slots and stash slots only. -/
theorem flipBit_frame (s : State) (slot : SlotRef) (wsel bit : Nat) :
    s.flipBit slot wsel bit =
      { s with ram := (s.flipBit slot wsel bit).ram, stash := (s.flipBit slot wsel bit).stash } := by
  cases slot <;> rfl

/-- Settles O49: the bits a soft error can flip are the backed ones, and each is one bit of one image word. -/
theorem corruptFlipsOneBit : Obligations.CorruptFlipsOneBit := by
  intro s slot wsel bit rest hwf hp
  obtain ⟨-, -, -, -, -, -, hvw⟩ := hwf
  rw [step_corrupt hp, advance_eq hp, corruptStep]
  have henabled := corruptible_iff { s with pending := rest } slot wsel bit
  refine ⟨fun hb => ?_, fun hb => if_neg (mt henabled.mp hb)⟩
  exact ⟨_, if_pos (henabled.mpr hb), flipBit_frame _ slot wsel bit,
    fun slot' _ _ => imageAt_flipBit (s := { s with pending := rest }) hvw hb slot'⟩

/-! ## A lookup does not read the groups for its Resolution -/

/-- The state with other parity groups in it. -/
def State.withGroups (s : State) (pg : Memory ParityGroup) : State := { s with parityGroups := pg }

theorem configCause_lookup_withGroups (s : State) (pg : Memory ParityGroup) (kw : Nat) (key : Wide) :
    (s.withGroups pg).ConfigCause (.lookup kw key) ↔ s.ConfigCause (.lookup kw key) := Iff.rfl

theorem rangeCause_lookup_withGroups (s : State) (pg : Memory ParityGroup) (kw : Nat) (key : Wide) :
    (s.withGroups pg).RangeCause (.lookup kw key) ↔ s.RangeCause (.lookup kw key) := Iff.rfl

theorem resolution_withGroups (s : State) (pg : Memory ParityGroup) (key : Wide) (av : Version) :
    (s.withGroups pg).resolution key av = s.resolution key av := rfl

/-- Settles O46: the error conditions and the Resolution of a lookup read no group; only its failure list
does. -/
theorem parityNeverChangesResolution : Obligations.ParityNeverChangesResolution := by
  intro s u pg kw key r h hu
  change ∃ u' r', exec (.lookup kw key) (s.withGroups pg) = .next u' ∧ _
  have hconfig := configCause_lookup_withGroups s pg kw key
  have hrange := rangeCause_lookup_withGroups s pg kw key
  rcases exec_cases (.lookup kw key) s with ⟨hc, he⟩ | ⟨hc, hr, he⟩ | ⟨hc, hr, he⟩
  · cases h.symm.trans he
    obtain rfl : ⟨.configError, .empty⟩ = r := by simpa using hu
    exact ⟨_, _, exec_configError (hconfig.mpr hc), rfl, rfl, nofun⟩
  · cases h.symm.trans he
    obtain rfl : ⟨.rangeError, .empty⟩ = r := by simpa using hu
    exact ⟨_, _, exec_rangeError (mt hconfig.mp hc) (hrange.mpr hr), rfl, rfl, nofun⟩
  · cases h.symm.trans (he.trans (effect_eq _ s))
    obtain rfl : reply (.lookup kw key) s = r := by simpa [written] using hu
    refine ⟨_, reply (.lookup kw key) (s.withGroups pg),
      (exec_effect (mt hconfig.mp hc) (mt hrange.mp hr)).trans (effect_eq _ _), rfl, rfl, ?_⟩
    rintro res perr ⟨⟩
    exact ⟨_, congrArg₂ Payload.lookup (resolution_withGroups s pg key s.activeVersion) rfl⟩

end Sys2Proof.Machine
end

section
/-! SUPPORT. The resolver (45_resolver.md): the two configuration commands of its tables and the three-way
priority of `resolve`. -/

namespace Sys2Proof.Machine

/-! ## The commands -/

/-- Settles O50: an address kind of at most 4 meets no error condition, and the effect is the write of its
triple. -/
theorem setMissDefaultCompletes : Obligations.SetMissDefaultCompletes := by
  intro s k miss mask dflt hk
  refine ⟨(s.setMissDef k ⟨miss, mask, dflt⟩).respond ⟨.ok, .empty⟩,
    exec_effect (Nat.not_lt.mpr hk) not_false, rfl, fun k' hk' => ?_⟩
  simp only [State.respond_missDef, State.setMissDef_missDef, Vector.getElem_setIfInBounds, eq_comm]

/-- Settles O51: an index of at most `NW` meets no error condition, and the effect is the write of its
count. -/
theorem setShiftcountCompletes : Obligations.SetShiftcountCompletes := by
  intro s i count hi
  exact ⟨(s.setShift i count).respond ⟨.ok, .empty⟩, exec_effect not_false (Nat.not_lt.mpr hi), rfl,
    s.setShift_shiftAt i count⟩

/-! ## The priority of `resolve` -/

/-- The first entry with a value is the one at the lowest index with a value. -/
theorem findSome_id_of_lowest {α : Type} {l : List (Option α)} {w : Nat} {x : α}
    (hx : l[w]? = some (some x)) (hlowest : ∀ w', w' < w → l[w']? = some none) :
    l.findSome? id = some x := by
  induction l generalizing w with
  | nil => simp at hx
  | cons a l ih =>
    cases w with
    | zero =>
      obtain rfl : a = some x := by simpa using hx
      rfl
    | succ w =>
      obtain rfl : a = none := by simpa using hlowest 0 w.succ_pos
      exact ih (by simpa using hx) fun w' hw' => by simpa using hlowest (w' + 1) (Nat.succ_lt_succ hw')

theorem State.resolve_of_findSome {s : State} {hits : List (Option WayHit)} {h : WayHit}
    (hfirst : hits.findSome? id = some h) (stash : Option StashHit) :
    s.resolve hits stash = .hitWay h (s.shiftAt h.way) := by
  simp only [State.resolve, hfirst]

/-- With no way hit the stash hit decides, and with none the miss defaults. -/
theorem State.resolve_of_no_hit {hits : List (Option WayHit)} (hnone : ∀ h ∈ hits, h = none) (s : State) :
    (∀ h, s.resolve hits (some h) = .hitStash h (s.shiftAt s.params.nw)) ∧
      s.resolve hits none = .miss s.missDef := by
  have hfirst : hits.findSome? id = none := List.findSome?_eq_none_iff.mpr hnone
  simp only [State.resolve, hfirst, implies_true, and_self]

/-- Settles O52: the first way hit carries its own way, whose shift count is then the one of its place in the
list. -/
theorem resolvePriority : Obligations.ResolvePriority := by
  refine ⟨fun s hits stash hway => ⟨fun w h hw hlowest => ?_, fun hnone => ⟨?_, ?_⟩⟩,
    fun s key av w hw => State.wayHit_none_of_not_configured hw key av⟩
  · rw [State.resolve_of_findSome (findSome_id_of_lowest hw hlowest), hway w h hw]
  · rintro h rfl
    exact (s.resolve_of_no_hit hnone).1 h
  · rintro rfl
    exact (s.resolve_of_no_hit hnone).2

end Sys2Proof.Machine
end

section
/-! SUPPORT. The version gate (46_version.md): the swap of the active version, and where a hit that a lookup
returns was found. -/

namespace Sys2Proof.Machine

/-! ## The swap -/

/-- Settles O40: a version that fits meets no error condition, and the effect is the write of the register. -/
theorem swapVersionCompletes : Obligations.SwapVersionCompletes :=
  fun _ _ hv => exec_effect (Nat.not_le.mpr hv) not_false

/-! ## Where a stash hit was found -/

theorem State.stashHitAt_eq_some {s : State} {r c : Nat} {key : Wide} {av : Version} {h : StashHit} :
    s.stashHitAt r key av c = some h ↔
      (s.stashAt r c).Matches key av ∧ h = ⟨r, c, (s.stashAt r c).rbs, (s.stashAt r c).idc⟩ := by
  rw [← StashEntry.hits_iff, State.stashHitAt, Option.ite_none_right_eq_some, Option.some.injEq,
    eq_comm (a := h)]

/-- A probe returns a slot of its row whose entry matches (43_stash.md R150). -/
theorem State.matches_of_probeFn {s : State} {r : Nat} {key : Wide} {av : Version} {h : StashHit}
    (hprobe : s.probeFn r key av = some h) : (s.stashAt h.row h.slot).Matches key av := by
  obtain ⟨c, -, hc⟩ := List.exists_of_findSome?_eq_some hprobe
  obtain ⟨hmatch, rfl⟩ := State.stashHitAt_eq_some.mp hc
  exact hmatch

/-- The stash stage returns the hit of one of its probes (47_lookup.md R209). -/
theorem State.matches_of_stashStage {s : State} {key : Wide} {av : Version} {h : StashHit}
    (hstage : s.stashStage key av = some h) : (s.stashAt h.row h.slot).Matches key av := by
  obtain ⟨-, hfirst⟩ := Option.ite_none_right_eq_some.mp hstage
  obtain ⟨w, -, hw⟩ := List.exists_of_findSome?_eq_some hfirst
  exact State.matches_of_probeFn hw

/-! ## Where the hit of a Resolution was found -/

/-- All that `resolve` can answer (45_resolver.md R188): a way hit of its list, its stash hit, or a miss. -/
theorem State.resolve_cases (s : State) (hits : List (Option WayHit)) (stash : Option StashHit) :
    (∃ h, some h ∈ hits ∧ s.resolve hits stash = .hitWay h (s.shiftAt h.way)) ∨
      (∃ h, stash = some h ∧ s.resolve hits stash = .hitStash h (s.shiftAt s.params.nw)) ∨
      s.resolve hits stash = .miss s.missDef := by
  cases hfirst : hits.findSome? id with
  | some h =>
    obtain ⟨_, hmem, rfl⟩ := List.exists_of_findSome?_eq_some hfirst
    exact .inl ⟨h, hmem, State.resolve_of_findSome hfirst stash⟩
  | none =>
    obtain ⟨hstash, hmiss⟩ := s.resolve_of_no_hit (List.findSome?_eq_none_iff.mp hfirst)
    cases stash with
    | some h => exact .inr (.inl ⟨h, rfl, hstash h⟩)
    | none => exact .inr (.inr hmiss)

theorem State.mem_of_resolve_eq_hitWay {s : State} {hits : List (Option WayHit)} {stash : Option StashHit}
    {h : WayHit} {n : BitVec 8} (hres : s.resolve hits stash = .hitWay h n) : some h ∈ hits := by
  rcases s.resolve_cases hits stash with ⟨_, hmem, he⟩ | ⟨_, -, he⟩ | he <;> cases he.symm.trans hres
  exact hmem

theorem State.eq_some_of_resolve_eq_hitStash {s : State} {hits : List (Option WayHit)}
    {stash : Option StashHit} {h : StashHit} {n : BitVec 8} (hres : s.resolve hits stash = .hitStash h n) :
    stash = some h := by
  rcases s.resolve_cases hits stash with ⟨_, -, he⟩ | ⟨_, hstash, he⟩ | he <;> cases he.symm.trans hres
  exact hstash

/-- A way hit of a Resolution is at a slot whose entry matches, and returns its VPN (42_way.md R134). -/
theorem State.matches_of_resolution_hitWay {s : State} {key : Wide} {av : Version} {h : WayHit}
    {n : BitVec 8} (hres : s.resolution key av = .hitWay h n) :
    (s.ramAt h.way h.row h.bank).Matches key av ∧ (s.ramAt h.way h.row h.bank).vpn = h.vpn := by
  obtain ⟨w, -, hw⟩ := List.mem_map.mp (State.mem_of_resolve_eq_hitWay hres)
  obtain ⟨-, hmatch, rfl⟩ := State.wayHit_eq_some.mp hw
  exact ⟨hmatch, rfl⟩

/-- A stash hit of a Resolution is at a slot whose entry matches (43_stash.md R150). -/
theorem State.matches_of_resolution_hitStash {s : State} {key : Wide} {av : Version} {h : StashHit}
    {n : BitVec 8} (hres : s.resolution key av = .hitStash h n) :
    (s.stashAt h.row h.slot).Matches key av :=
  State.matches_of_stashStage (State.eq_some_of_resolve_eq_hitStash hres)

/-- A lookup answered `OK` answers the Resolution of its key under `ACTIVE_VERSION` (47_lookup.md R206). -/
theorem resolution_of_exec_lookup {s t : State} {kw : Nat} {key : Wide} {res : Resolution}
    {perr : List Nat} (h : exec (.lookup kw key) s = .next t)
    (hok : t.responses = s.responses ++ [⟨.ok, .lookup res perr⟩]) :
    s.resolution key s.activeVersion = res := by
  obtain ⟨-, -, heffect⟩ := exec_ok h hok
  cases heffect
  obtain ⟨hres, -⟩ : s.resolution key s.activeVersion = res ∧ _ := by simpa using hok
  exact hres

/-- Settles O41: the entry at the hit matches the key under `ACTIVE_VERSION`, so it is enabled or populated
and has that version. -/
theorem hitsAreOfTheActiveVersion : Obligations.HitsAreOfTheActiveVersion := by
  intro s t kw key res perr h hok
  obtain rfl := resolution_of_exec_lookup h hok
  refine ⟨fun hit n hres => ?_, fun hit n hres => ?_⟩
  · obtain ⟨⟨hne, hver, -⟩, hvpn⟩ := State.matches_of_resolution_hitWay hres
    exact ⟨hne, hver, hvpn⟩
  · obtain ⟨hben, hver, -⟩ := State.matches_of_resolution_hitStash hres
    exact ⟨hben, hver⟩

end Sys2Proof.Machine
end

section
/-! SUPPORT. The lookup pipeline (47_lookup.md): what a way's report depends on, which hit becomes the
Resolution, and the failure list over the read set. -/

namespace Sys2Proof.Machine

/-! ## What a way's report depends on -/

section
variable {s t : State} {w : Nat}

theorem State.configured_congr (hnw : s.params.nw = t.params.nw) (hcfg : s.wayCfgAt w = t.wayCfgAt w) :
    s.configured w = t.configured w := by
  rw [State.configured, State.configured, hnw, hcfg]

theorem State.coordOf_congr (hcfg : s.wayCfgAt w = t.wayCfgAt w)
    (hmatrix : ∀ i, s.matrixAt w i = t.matrixAt w i) (key : Wide) : s.coordOf key w = t.coordOf key w := by
  rw [State.coordOf, State.coordOf, hcfg, State.hashFn_congr hcfg hmatrix]

/-- Of the slot at the key's coordinate a way's report reads the verdict only. -/
theorem State.wayHit_congr {key : Wide} {av : Version} (hnw : s.params.nw = t.params.nw)
    (hcfg : s.wayCfgAt w = t.wayCfgAt w) (hmatrix : ∀ i, s.matrixAt w i = t.matrixAt w i)
    (hverdict : wayMatch (s.ramAt w (s.coordOf key w).row (s.coordOf key w).bank) key av =
      wayMatch (t.ramAt w (s.coordOf key w).row (s.coordOf key w).bank) key av) :
    s.wayHit key av w = t.wayHit key av w := by
  rw [State.coordOf_congr hcfg hmatrix] at hverdict
  simp only [State.wayHit, State.configured_congr hnw hcfg, State.coordOf_congr hcfg hmatrix, hverdict]

end

/-- Settles O56: the hash, the layout and the slot are the way's own. -/
theorem waysAreIndependent : Obligations.WaysAreIndependent := by
  intro s t w key av hnw hcfg hmatrix hslot
  exact ⟨State.wayHit_congr hnw hcfg hmatrix (by rw [hslot]), State.coordOf_congr hcfg hmatrix key⟩

/-! ## Which hit becomes the Resolution -/

section
variable {s : State} {key : Wide} {av : Version}

theorem State.wayHit_eq_none {w : Nat} :
    s.wayHit key av w = none ↔ ¬(s.configured w = true ∧
      (s.ramAt w (s.coordOf key w).row (s.coordOf key w).bank).Matches key av) := by
  rw [Option.eq_none_iff_forall_ne_some]
  constructor
  · rintro hnone ⟨hw, hmatch⟩
    exact hnone _ (State.wayHit_eq_some.mpr ⟨hw, hmatch, rfl⟩)
  · intro hnot h hsome
    obtain ⟨hw, hmatch, -⟩ := State.wayHit_eq_some.mp hsome
    exact hnot ⟨hw, hmatch⟩

/-- The hit of the lowest way wins (45_resolver.md R190). -/
theorem State.resolution_of_lowest_way {w : Nat} {h : WayHit} (hhit : s.wayHit key av w = some h)
    (hlowest : ∀ w', w' < w → s.wayHit key av w' = none) :
    s.resolution key av = .hitWay h (s.shiftAt w) := by
  obtain ⟨hw, -, hfields⟩ := State.wayHit_eq_some.mp hhit
  have hfirst : (s.wayHits key av).findSome? id = some h := by
    rw [State.wayHits, List.findSome?_map]
    exact findSome_range _ (State.configured_lt hw) hhit hlowest
  rw [State.resolution, State.resolve_of_findSome hfirst, hfields]

section
variable (hmiss : ∀ w, s.wayHit key av w = none)
include hmiss

theorem State.wayHits_none_of_allMiss : ∀ h ∈ s.wayHits key av, h = none := by
  intro h hmem
  obtain ⟨w, -, rfl⟩ := List.mem_map.mp hmem
  exact hmiss w

/-- When every way missed, the stash stage is the search through the rows of the participating ways
(47_lookup.md R209). -/
theorem State.stashStage_of_allMiss :
    s.stashStage key av = s.participants.findSome? fun w => s.probeFn (s.coordOf key w).row key av :=
  if_pos ((s.allMiss_iff key av).mpr hmiss)

theorem State.resolution_of_lowest_probe {w : Nat} {h : StashHit} (hw : s.configured w = true)
    (hhit : s.probeFn (s.coordOf key w).row key av = some h)
    (hlowest : ∀ w', w' < w → s.configured w' = true → s.probeFn (s.coordOf key w').row key av = none) :
    s.resolution key av = .hitStash h (s.shiftAt s.params.nw) := by
  have hstage : s.stashStage key av = some h := by
    rw [State.stashStage_of_allMiss hmiss]
    exact findSome_sorted _ s.participants_ascending ((s.mem_participants w).mpr hw) hhit
      fun w' hmem hlt => hlowest w' hlt ((s.mem_participants w').mp hmem)
  rw [State.resolution, hstage]
  exact (s.resolve_of_no_hit (State.wayHits_none_of_allMiss hmiss)).1 h

theorem State.resolution_of_no_hit
    (hprobe : ∀ w, s.configured w = true → s.probeFn (s.coordOf key w).row key av = none) :
    s.resolution key av = .miss s.missDef := by
  have hstage : s.stashStage key av = none := by
    rw [State.stashStage_of_allMiss hmiss, List.findSome?_eq_none_iff]
    exact fun w hmem => hprobe w ((s.mem_participants w).mp hmem)
  rw [State.resolution, hstage]
  exact (s.resolve_of_no_hit (State.wayHits_none_of_allMiss hmiss)).2

end

end

/-- Settles O54: a way reports a hit exactly when it takes part and its entry matches. -/
theorem lookupPicksHighestPriorityHit : Obligations.LookupPicksHighestPriorityHit := by
  intro s t kw key res perr h hok hit probe
  obtain rfl := resolution_of_exec_lookup h hok
  refine ⟨fun w ⟨hw, hmatch⟩ hlowest => ?_, fun hnone => ⟨fun w hstash hw => ?_, ?_⟩⟩
  · exact State.resolution_of_lowest_way (State.wayHit_eq_some.mpr ⟨hw, hmatch, rfl⟩)
      fun w' hlt => State.wayHit_eq_none.mpr (hlowest w' hlt)
  · exact State.resolution_of_lowest_probe (fun w' => State.wayHit_eq_none.mpr (hnone w')) hw
  · exact State.resolution_of_no_hit fun w' => State.wayHit_eq_none.mpr (hnone w')

/-! ## The failure list -/

theorem State.groupFails_iff (s : State) (g : Nat) :
    s.groupFails g = true ↔ (s.groupAt g).valid = true ∧
      ones (s.groupBits g &&& (s.groupAt g).mask) % 2 ≠ (s.groupAt g).expected.toNat := by
  rw [State.groupFails, Bool.and_eq_true, Bool.not_eq_true', ← Bool.not_eq_true, checkOk_iff]

theorem State.mem_parityFailures (s : State) (slots : List SlotRef) (g : Nat) :
    g ∈ s.parityFailures slots ↔
      g < s.params.npg ∧ s.groupFails g = true ∧ (s.groupAt g).slot ∈ slots := by
  simp only [State.parityFailures, List.mem_filter, List.mem_range, Bool.and_eq_true,
    List.contains_iff_mem]

theorem State.parityFailures_ascending (s : State) (slots : List SlotRef) :
    (s.parityFailures slots).Pairwise (· < ·) := List.pairwise_lt_range.filter _

/-- Settles O53: the effect is the report of the failing groups of the read set and the answer. -/
theorem lookupCompletes : Obligations.LookupCompletes := by
  intro s kw key hc hr
  refine ⟨s.parityFailures (s.readSet key s.activeVersion), exec_effect hc hr,
    s.parityFailures_ascending _, fun g => ?_⟩
  rw [State.mem_parityFailures, State.groupFails_iff, State.mem_readSet]
  tauto

/-! ## No way configured -/

section
variable {s : State} {kw : Nat} {key : Wide} (hnone : ∀ w, s.configured w = false)
include hnone

/-- With no way configured only the key and its width can be refused. -/
theorem not_configCause_lookup_of_no_way (hkw : 1 ≤ kw ∧ kw ≤ 128) (hkey : ¬ OverWide key kw) :
    ¬ s.ConfigCause (.lookup kw key) := by
  rintro (hwidth | hover | ⟨w, hw, hvalid, -⟩)
  · exact hwidth hkw
  · exact hkey hover
  · simpa [State.configured, hw, hvalid] using hnone w

theorem not_rangeCause_lookup_of_no_way : ¬ s.RangeCause (.lookup kw key) := by
  rintro ⟨w, hw, hvalid, -⟩
  simpa [State.configured, hw, hvalid] using hnone w

theorem State.not_inReadSet_of_no_way (av : Version) (slot : SlotRef) : ¬ s.InReadSet key av slot := by
  rintro (⟨w, hw, -⟩ | ⟨-, w, c, hw, -⟩) <;> simp [hnone w] at hw

end

/-- Settles O55: no way reports a hit, no stash row is probed, and the read set is empty. -/
theorem noConfiguredWayMisses : Obligations.NoConfiguredWayMisses := by
  intro s kw key hnone hlow hhigh hkey
  obtain ⟨perr, hexec, -, hperr⟩ := lookupCompletes s kw key
    (not_configCause_lookup_of_no_way hnone ⟨hlow, hhigh⟩ hkey) (not_rangeCause_lookup_of_no_way hnone)
  have hempty : perr = [] := List.eq_nil_iff_forall_not_mem.mpr fun g hg => by
    obtain ⟨-, -, hread, -⟩ := (hperr g).mp hg
    exact State.not_inReadSet_of_no_way hnone _ _ hread
  have hres : s.resolution key s.activeVersion = .miss s.missDef :=
    State.resolution_of_no_hit (fun w => State.wayHit_none_of_not_configured (hnone w) key _)
      fun w hw => by simp [hnone w] at hw
  rw [hexec, hempty, hres, List.map_nil, List.append_nil]

end Sys2Proof.Machine
end

section
/-! SUPPORT. The error answers (60_exceptions.md): an answer with an error status is one of the two raised
errors, and which one follows from the causes of the command. -/

namespace Sys2Proof.Machine

/-! ## What an error answer says -/

/-- No effect answers one of the two errors that a check raises. -/
theorem reply_status (i : Instr) (s : State) :
    (reply i s).status = .ok ∨ (reply i s).status = .parityError := by
  cases i with
  | pcheck group bits =>
    simp only [reply]
    split
    · exact .inl rfl
    · exact .inr rfl
  | _ => exact .inl rfl

/-- All that an answer with an error status can be (60_exceptions.md R224, R226). -/
theorem exec_error_cases {i : Instr} {s t : State} {r : Response} (h : exec i s = .next t)
    (hr : t.responses = s.responses ++ [r]) (herror : r.status = .configError ∨ r.status = .rangeError) :
    (s.ConfigCause i ∧ r = ⟨.configError, .empty⟩ ∧ t = s.respond r) ∨
    (¬ s.ConfigCause i ∧ s.RangeCause i ∧ r = ⟨.rangeError, .empty⟩ ∧ t = s.respond r) := by
  rcases exec_cases i s with ⟨hc, he⟩ | ⟨hc, hrange, he⟩ | ⟨-, -, he⟩
  · cases h.symm.trans he
    obtain rfl : ⟨.configError, .empty⟩ = r := by simpa using hr
    exact .inl ⟨hc, rfl, rfl⟩
  · cases h.symm.trans he
    obtain rfl : ⟨.rangeError, .empty⟩ = r := by simpa using hr
    exact .inr ⟨hc, hrange, rfl, rfl⟩
  · cases h.symm.trans (he.trans (effect_eq i s))
    obtain ⟨hwritten, -⟩ := written_outputs i s
    obtain rfl : reply i s = r := by simpa [hwritten] using hr
    rcases reply_status i s with hs | hs <;> simp [hs] at herror

/-- Settles O8: an answer with an error status is a raised error. -/
theorem errorsWriteNothing : Obligations.ErrorsWriteNothing := by
  intro i s t r h hr herror
  rcases exec_error_cases h hr herror with ⟨-, rfl, ht⟩ | ⟨-, -, rfl, ht⟩ <;> exact ht

theorem exec_configError_iff {i : Instr} {s : State} :
    exec i s = .next (s.respond ⟨.configError, .empty⟩) ↔ s.ConfigCause i := by
  refine ⟨fun h => ?_, exec_configError⟩
  rcases exec_error_cases h rfl (.inl rfl) with ⟨hc, -⟩ | ⟨-, -, hr, -⟩
  · exact hc
  · cases hr

theorem exec_rangeError_iff {i : Instr} {s : State} :
    exec i s = .next (s.respond ⟨.rangeError, .empty⟩) ↔ ¬ s.ConfigCause i ∧ s.RangeCause i := by
  refine ⟨fun h => ?_, fun ⟨hc, hr⟩ => exec_rangeError hc hr⟩
  rcases exec_error_cases h rfl (.inr rfl) with ⟨-, hr, -⟩ | ⟨hc, hr, -⟩
  · cases hr
  · exact ⟨hc, hr⟩

/-! ## On a frame -/

theorem rangeCause_of_engine {i : Instr} {s t : State} (h : t.engine = s.engine) :
    t.RangeCause i ↔ s.RangeCause i := by
  rw [State.eq_withOutputs_of_engine h]
  exact rangeCause_withOutputs i s _ _ _ _

theorem legal_of_decode_ok {f : Frame} {i : Instr} (h : decode f = .ok i) : f.legal = true :=
  f.legal_iff.mpr ⟨i, h⟩

theorem illegal_of_decode_error {f : Frame} {e : IllegalFrame} (h : decode f = .error e) :
    f.legal = false := by
  rw [← Bool.not_eq_true, f.legal_iff]
  rintro ⟨i, hi⟩
  cases h.symm.trans hi

/-- Settles O9: an illegal frame is refused before its command is known, and a legal one is answered by its
command, for which taking the frame changes no cause. -/
theorem configErrorCauses : Obligations.ConfigErrorCauses := by
  intro s f rest hp
  cases hd : decode f with
  | ok i =>
    rw [step_command hp hd, exec_configError_iff, configCause_of_engine s.takeCommand_engine]
    simp [legal_of_decode_ok hd]
  | error e => simp [step_illegal hp hd, illegal_of_decode_error hd]

/-- Settles O10, as for `CONFIG_ERROR`; an illegal frame is answered with that status instead. -/
theorem rangeErrorCauses : Obligations.RangeErrorCauses := by
  intro s f rest hp
  cases hd : decode f with
  | ok i =>
    rw [step_command hp hd, exec_rangeError_iff, configCause_of_engine s.takeCommand_engine,
      rangeCause_of_engine s.takeCommand_engine]
    simp [legal_of_decode_ok hd]
  | error e => simp [step_illegal hp hd, illegal_of_decode_error hd, State.respond_inj]

end Sys2Proof.Machine
end

section
/-! SUPPORT. Reset and hazards (70_reset_and_hazards.md): the reset step, and when two states answer every
lookup alike but for its failure list, so that a table can be loaded behind a running one. -/

namespace Sys2Proof.Machine

/-- Settles O20: the frame is taken from the schedule, then the engine is reset. -/
theorem resetStep_spec : Obligations.ResetStep := by
  intro s rest hp
  rw [step_reset hp, advance_eq hp]
  rfl

/-! ## States that answer lookups alike -/

/-- `t` gives a lookup what `s` gives it: all that its checks and its Resolution read is the same, of the
slots the verdicts under `ACTIVE_VERSION` only. -/
structure State.LooksUpLike (s t : State) : Prop where
  params : t.params = s.params
  wayCfg : t.wayCfg = s.wayCfg
  matrix : t.matrix = s.matrix
  activeVersion : t.activeVersion = s.activeVersion
  missDef : t.missDef = s.missDef
  shiftCount : t.shiftCount = s.shiftCount
  way : ∀ w r b key,
    wayMatch (t.ramAt w r b) key s.activeVersion = wayMatch (s.ramAt w r b) key s.activeVersion
  stash : ∀ r c key, t.stashHitAt r key s.activeVersion c = s.stashHitAt r key s.activeVersion c

theorem State.looksUpLike_respond (s : State) (r : Response) : s.LooksUpLike (s.respond r) :=
  ⟨rfl, rfl, rfl, rfl, rfl, rfl, fun _ _ _ _ => rfl, fun _ _ _ => rfl⟩

/-- An entry that misses in place of an entry that misses. -/
theorem State.looksUpLike_setRam_respond {s : State} {w r b : Nat} {e : RamEntry} (a : Response)
    (hold : ∀ key, ¬ (s.ramAt w r b).Matches key s.activeVersion)
    (hnew : ∀ key, ¬ e.Matches key s.activeVersion) : s.LooksUpLike ((s.setRam w r b e).respond a) where
  params := rfl
  wayCfg := rfl
  matrix := rfl
  activeVersion := rfl
  missDef := rfl
  shiftCount := rfl
  way w' r' b' key := by
    rw [State.respond_ramAt, State.setRam_ramAt]
    split
    · obtain ⟨rfl, rfl, rfl⟩ := ‹w' = w ∧ r' = r ∧ b' = b›
      rw [wayMatch_of_not_matches (hold key), wayMatch_of_not_matches (hnew key)]
    · rfl
  stash _ _ _ := rfl

theorem State.looksUpLike_setStash_respond {s : State} {r c : Nat} {e : StashEntry} (a : Response)
    (hold : ∀ key, ¬ (s.stashAt r c).Matches key s.activeVersion)
    (hnew : ∀ key, ¬ e.Matches key s.activeVersion) : s.LooksUpLike ((s.setStash r c e).respond a) where
  params := rfl
  wayCfg := rfl
  matrix := rfl
  activeVersion := rfl
  missDef := rfl
  shiftCount := rfl
  way _ _ _ _ := rfl
  stash r' c' key := by
    by_cases hslot : r' = r ∧ c' = c
    · obtain ⟨rfl, rfl⟩ := hslot
      rw [State.stashHitAt_eq_none.mpr (hold key), State.stashHitAt_eq_none]
      simpa using hnew key
    · simp [State.stashHitAt, hslot]

section
variable {s t : State} (hlike : s.LooksUpLike t)
include hlike

theorem State.LooksUpLike.wayCfgAt (w : Nat) : t.wayCfgAt w = s.wayCfgAt w := by
  rw [State.wayCfgAt, hlike.wayCfg, State.wayCfgAt]

theorem State.LooksUpLike.matrixAt (w i : Nat) : t.matrixAt w i = s.matrixAt w i := by
  rw [State.matrixAt, hlike.matrix, State.matrixAt]

theorem State.LooksUpLike.shiftAt (i : Nat) : t.shiftAt i = s.shiftAt i := by
  rw [State.shiftAt, hlike.shiftCount, State.shiftAt]

theorem State.LooksUpLike.configured (w : Nat) : t.configured w = s.configured w :=
  State.configured_congr (congrArg Params.nw hlike.params) (hlike.wayCfgAt w)

theorem State.LooksUpLike.coordOf (key : Wide) (w : Nat) : t.coordOf key w = s.coordOf key w :=
  State.coordOf_congr (hlike.wayCfgAt w) (hlike.matrixAt w) key

theorem State.LooksUpLike.wayHit (key : Wide) (w : Nat) :
    t.wayHit key s.activeVersion w = s.wayHit key s.activeVersion w :=
  State.wayHit_congr (congrArg Params.nw hlike.params) (hlike.wayCfgAt w) (hlike.matrixAt w)
    (hlike.way w _ _ key)

theorem State.LooksUpLike.participants : t.participants = s.participants := by
  simp only [State.participants, hlike.params, funext hlike.configured]

theorem State.LooksUpLike.wayHits (key : Wide) :
    t.wayHits key s.activeVersion = s.wayHits key s.activeVersion := by
  simp only [State.wayHits, hlike.params, funext (hlike.wayHit key)]

theorem State.LooksUpLike.allMiss (key : Wide) :
    t.allMiss key s.activeVersion = s.allMiss key s.activeVersion := by
  rw [State.allMiss, hlike.wayHits, State.allMiss]

theorem State.LooksUpLike.probeFn (r : Nat) (key : Wide) :
    t.probeFn r key s.activeVersion = s.probeFn r key s.activeVersion := by
  rw [State.probeFn, State.probeFn, hlike.params, funext fun c => hlike.stash r c key]

theorem State.LooksUpLike.stashStage (key : Wide) :
    t.stashStage key s.activeVersion = s.stashStage key s.activeVersion := by
  simp only [State.stashStage, hlike.allMiss, hlike.participants, hlike.coordOf, hlike.probeFn]

theorem State.LooksUpLike.resolution (key : Wide) :
    t.resolution key t.activeVersion = s.resolution key s.activeVersion := by
  simp only [State.resolution, State.resolve, hlike.activeVersion, hlike.wayHits, hlike.stashStage,
    hlike.shiftAt, hlike.params, hlike.missDef]

theorem State.LooksUpLike.configCause (kw : Nat) (key : Wide) :
    t.ConfigCause (.lookup kw key) ↔ s.ConfigCause (.lookup kw key) := by
  simp only [State.ConfigCause, hlike.params, hlike.wayCfgAt]

theorem State.LooksUpLike.rangeCause (kw : Nat) (key : Wide) :
    t.RangeCause (.lookup kw key) ↔ s.RangeCause (.lookup kw key) := by
  have hhash : ∀ w, t.hashFn w key = s.hashFn w key := fun w =>
    State.hashFn_congr (hlike.wayCfgAt w) (hlike.matrixAt w) key
  simp only [State.RangeCause, State.NoRamSlot, hlike.params, hlike.wayCfgAt, hhash]

/-- The same error, or the same Resolution beside some failure list. -/
theorem State.LooksUpLike.exec_lookup {u : State} {r : Response} {kw : Nat} {key : Wide}
    (h : exec (.lookup kw key) s = .next u) (hu : u.responses = s.responses ++ [r]) :
    ∃ u' r', exec (.lookup kw key) t = .next u' ∧ u'.responses = t.responses ++ [r'] ∧
      r'.status = r.status ∧
      ∀ res perr, r.payload = .lookup res perr → ∃ perr', r'.payload = .lookup res perr' := by
  have hconfig := hlike.configCause kw key
  have hrange := hlike.rangeCause kw key
  rcases exec_cases (.lookup kw key) s with ⟨hc, he⟩ | ⟨hc, hr, he⟩ | ⟨hc, hr, he⟩
  · cases h.symm.trans he
    obtain rfl : ⟨.configError, .empty⟩ = r := by simpa using hu
    exact ⟨_, _, exec_configError (hconfig.mpr hc), rfl, rfl, nofun⟩
  · cases h.symm.trans he
    obtain rfl : ⟨.rangeError, .empty⟩ = r := by simpa using hu
    exact ⟨_, _, exec_rangeError (mt hconfig.mp hc) (hrange.mpr hr), rfl, rfl, nofun⟩
  · cases h.symm.trans (he.trans (effect_eq _ s))
    obtain rfl : reply (.lookup kw key) s = r := by simpa [written] using hu
    refine ⟨_, reply (.lookup kw key) t,
      (exec_effect (mt hconfig.mp hc) (mt hrange.mp hr)).trans (effect_eq _ _), rfl, rfl, ?_⟩
    rintro res perr ⟨⟩
    exact ⟨_, congrArg₂ Payload.lookup (hlike.resolution key) rfl⟩

end

/-! ## Loading under an inactive version -/

theorem StashEntry.not_matches_of_not_populated {e : StashEntry} (h : e.ben = false) (key : Wide)
    (av : Version) : ¬ e.Matches key av := fun ⟨hben, _⟩ => by simp [h] at hben

theorem StashEntry.not_matches_of_ver_ne {e : StashEntry} {av : Version} (h : e.ver ≠ av) (key : Wide) :
    ¬ e.Matches key av := fun ⟨_, hver, _⟩ => h hver

section
variable {s t : State} {v : Version} (hv : v ≠ s.activeVersion)
include hv

theorem looksUpLike_of_inactive_insert {w r b mw dw : Nat} {mask data : Wide} {vpn : BitVec 16}
    {ne : BitVec 32} {ctl : BitVec 8} (h : exec (.insert w r b v mw mask dw data vpn ne ctl) s = .next t)
    (hslot : (s.ramAt w r b).ne = 0 ∨ (s.ramAt w r b).ver ≠ s.activeVersion) : s.LooksUpLike t := by
  rcases exec_next h with ⟨status, rfl⟩ | ⟨-, -, rfl⟩
  · exact s.looksUpLike_respond _
  · have hold : ∀ key, ¬ (s.ramAt w r b).Matches key s.activeVersion := fun key =>
      hslot.elim (fun hne => RamEntry.not_matches_of_disabled hne key _)
        fun hver => RamEntry.not_matches_of_ver_ne hver key
    rw [reported_of_ne_lookup (by simp), State.report_nil]
    exact State.looksUpLike_setRam_respond _ hold fun key => RamEntry.not_matches_of_ver_ne hv key

theorem looksUpLike_of_inactive_stashWrite {r c : Nat} {mm md : Wide} {idc : BitVec 16}
    {rbs : BitVec 8} {ben : Bool} (h : exec (.stashWrite r c v mm md idc rbs ben) s = .next t)
    (hslot : (s.stashAt r c).ben = false ∨ (s.stashAt r c).ver ≠ s.activeVersion) :
    s.LooksUpLike t := by
  rcases exec_next h with ⟨status, rfl⟩ | ⟨-, -, rfl⟩
  · exact s.looksUpLike_respond _
  · have hold : ∀ key, ¬ (s.stashAt r c).Matches key s.activeVersion := fun key =>
      hslot.elim (fun hben => StashEntry.not_matches_of_not_populated hben key _)
        fun hver => StashEntry.not_matches_of_ver_ne hver key
    rw [reported_of_ne_lookup (by simp), State.report_nil]
    exact State.looksUpLike_setStash_respond _ hold fun key => StashEntry.not_matches_of_ver_ne hv key

end

/-- Settles O42: the slot misses before and after under `ACTIVE_VERSION`, so the load is out of every
lookup's sight. -/
theorem makeBeforeBreak : Obligations.MakeBeforeBreak := by
  intro s t i h hload kw key u r hu
  have hlike : s.LooksUpLike t := by
    rcases hload with ⟨w, row, b, v, mw, mask, dw, data, vpn, ne, ctl, rfl, hv, hslot⟩ |
      ⟨row, c, v, mm, md, idc, rbs, ben, rfl, hv, hslot⟩
    · exact looksUpLike_of_inactive_insert hv h hslot
    · exact looksUpLike_of_inactive_stashWrite hv h hslot
  exact hlike.exec_lookup hu

end Sys2Proof.Machine
end
